-- ==== Sys2Proof/Word.lean ====
section
/-! DEFINITION. The bit-vector types of the port (00_scope.md R10, 20_memory.md R61). -/

namespace Sys2Proof

/-- A 32-bit register or bus word (R10, R61). -/
abbrev Word := BitVec 32

/-- One byte of an operand buffer (R10, R36). -/
abbrev Byte := BitVec 8

/-- A byte offset from ENGINE_BASE, the 15-bit PADDR (R61, R71). -/
abbrev Offset := BitVec 15

/-- The byte strobes PSTRB of a write: bit j qualifies lane j (R61). -/
abbrev Strobe := BitVec 4

end Sys2Proof
end

