-- ==== Sys2Proof/Config.lean ====
section
/-! DEFINITION. What an implementation fixes (00_scope.md R8) and the free values (93_implementation_defined.md).
An opaque constant has no body, so every claim holds whatever it is. -/

namespace Sys2Proof

/-- The default of the parameter MAX_BYTES (R8). The machine's own value is the field `maxBytes` of State. -/
def Config.maxBytesDefault : Nat := 512

/-- LIMB_W, the limb width in bits (R8, R161): 64, fixed. -/
def Config.limbBits : Nat := 64

/-- ENGINE_BASE, the bus address of offset 0 (R8, R83; U6): OPEN, left to the platform. No rule's effect depends on it. -/
opaque Config.engineBase : Nat

/-- LAT_BOUND, clock cycles from acceptance to completion, as a function of the opcode and the lengths of BASE, EXP and
MOD (R8, R276; U5): OPEN. No rule uses it. -/
opaque Config.latBound : BitVec 8 → Nat → Nat → Nat → Nat

/-- FREE VALUE: what the buffer byte at a port offset holds after a reset, until something writes it (R37; U1, U2).
First argument: how many RESET events there were; second: the offset. -/
opaque Config.resetByte : Nat → Nat → Byte

/-- FREE VALUE: how many clocks pass between two steps while BUSY = 1 (R34, R276; U3). Argument: the index of the draw. -/
opaque Config.elapsedClocks : Nat → Nat

/-- FREE VALUE: what a working register of the datapath holds once its value is discarded (10_state.md R40; 42_datapath.md R173).
First argument: the index of the draw; second: the register, in R40's order. -/
opaque Config.discardedRegister : Nat → Nat → Nat

end Sys2Proof
end

