-- ==== Sys2Proof/Syntax.lean ====
section
/-! DEFINITION. The commands: one constructor per row of spec/opcode_table.json (30_encoding.md R90, R91). A command
word has one operand, the bit IE; the operand values stand in the argument registers and the windows (R94). -/

namespace Sys2Proof

/-- A legal command word's content: the command, and the bit IE written by the same write (R91). -/
inductive Instr where
  /-- CMD 0x01: r = pow(base, exp) mod m (R140). -/
  | modexp (ie : Bool)
  /-- CMD 0x02: r = (A * B) mod m (R190). -/
  | modmul (ie : Bool)
  /-- CMD 0x03: r = A mod m (R193). -/
  | modred (ie : Bool)
  /-- CMD 0x04: r = (A * B * ModInv(R, m)) mod m, m odd (R196). -/
  | montmul (ie : Bool)
  /-- CMD 0x0F: clear all four buffers (R204). -/
  | zeroize (ie : Bool)
deriving DecidableEq, Repr

end Sys2Proof
end

