-- ==== Sys2Proof/WellFormed.lean ====
section
/-! DEFINITION. Well-formedness: of an instruction and of the parameter MAX_BYTES. -/

namespace Sys2Proof

/-- Every term of `Instr` is well-formed: IE takes either value and there is no other operand (R91, R94). -/
def Instr.wf : Instr → Bool
  | .modexp _ => true
  | .modmul _ => true
  | .modred _ => true
  | .montmul _ => true
  | .zeroize _ => true

/-- The legal values of MAX_BYTES: the multiples of 8 from 8 to 4096 (R8). -/
def Config.legalMaxBytes (n : Nat) : Bool :=
  n % 8 == 0 && decide (8 ≤ n) && decide (n ≤ 4096)

end Sys2Proof
end

