-- ==== Sys2Proof/Decode.lean ====
section
/-! DEFINITION. Decoding the 32-bit command word, total and rejecting by name, and the encoder (30_encoding.md R90, R91,
R92). Reserved bits 31:16 and 7:2 are ignored (R91, R97). -/

namespace Sys2Proof

/-- Why a CTRL word is no legal command. -/
inductive DecodeError where
  /-- START = 0: the write only sets IE and CMD (R91, R110). -/
  | notACommand
  /-- START = 1 with a CMD value that is no legal opcode (R92, R207); its CMD and IE. -/
  | illegalCommand (cmd : BitVec 8) (ie : Bool)
deriving DecidableEq, Repr

/-- The START bit of a CTRL word, bit 0 (R91). -/
def fieldSTART (w : Word) : Bool := w.getLsbD 0

/-- The IE bit of a CTRL word, bit 1 (R91). -/
def fieldIE (w : Word) : Bool := w.getLsbD 1

/-- The CMD field of a CTRL word, bits 15:8 (R91). -/
def fieldCMD (w : Word) : BitVec 8 := w.extractLsb' 8 8

/-- The opcode map of R91: the command of a CMD value, with its IE bit. -/
def decodeCMD (cmd : BitVec 8) (ie : Bool) : Except DecodeError Instr :=
  if cmd = 0x01#8 then .ok (.modexp ie)
  else if cmd = 0x02#8 then .ok (.modmul ie)
  else if cmd = 0x03#8 then .ok (.modred ie)
  else if cmd = 0x04#8 then .ok (.montmul ie)
  else if cmd = 0x0F#8 then .ok (.zeroize ie)
  else .error (.illegalCommand cmd ie)

/-- Decode a word written to CTRL (R91, R92). -/
def decode (w : Word) : Except DecodeError Instr :=
  if fieldSTART w then decodeCMD (fieldCMD w) (fieldIE w) else .error .notACommand

/-- The opcode of a command (R91). -/
def Instr.opcode : Instr → BitVec 8
  | .modexp _ => 0x01#8
  | .modmul _ => 0x02#8
  | .modred _ => 0x03#8
  | .montmul _ => 0x04#8
  | .zeroize _ => 0x0F#8

/-- The IE bit of a command word (R91). -/
def Instr.ie : Instr → Bool
  | .modexp ie => ie
  | .modmul ie => ie
  | .modred ie => ie
  | .montmul ie => ie
  | .zeroize ie => ie

/-- The CTRL word with given CMD, IE and START, reserved bits 0 (R91). -/
def ctrlWord (cmd : BitVec 8) (ie start : Bool) : Word :=
  0#16 ++ cmd ++ 0#6 ++ BitVec.ofBool ie ++ BitVec.ofBool start

/-- The command word of an instruction, reserved bits 0 (R91, R99). -/
def encode (i : Instr) : Word := ctrlWord i.opcode i.ie true

/-- The instruction whose table bits are `w`: the command word is one 32-bit word, its bit 0 the table's bit 0
(R90, R91); a row of more bits, or a value of more bits than the row, is no command word. -/
def decodeTableWord (nbits w : Nat) : Option Instr :=
  if nbits ≤ 32 ∧ w < 2 ^ nbits then
    match decode (BitVec.ofNat 32 w) with
    | .ok i => some i
    | .error _ => none
  else none

end Sys2Proof
end

