-- ==== Sys2Proof/Machine/State.lean ====
section
/-! DEFINITION. The state of the engine as plain data (10_state.md), the events of the outside world, and the state after
reset (R41). ID, VERSION, CAPS, irq, PREADY, PSLVERR and the phase are computed from it (Machine/Ops.lean, Flags.lean). -/

namespace Sys2Proof.Machine

/-- The four operand buffers and their windows (R36). -/
inductive Buf where
  | base | exp | mod | out
deriving DecidableEq, Repr

/-- The checks that decide a status, with the CAUSE number of each (30_encoding.md R96). -/
inductive Cause where
  /-- 0: success. -/
  | none
  /-- 1: CMD is not a legal opcode (R115, R207). -/
  | illegalCmd
  /-- 2: ARGS.BASE_V = 0 (R116). -/
  | nullBase
  /-- 3: ARGS.EXP_V = 0 (R116). -/
  | nullExp
  /-- 4: ARGS.MOD_V = 0 (R116). -/
  | nullMod
  /-- 5: ARGS.OUT_V = 0 (R116). -/
  | nullOut
  /-- 6: OUT_LEN < MOD_LEN (R117). -/
  | capLtModLen
  /-- 7: BASE_LEN > MAX_BYTES (R119). -/
  | baseTooLong
  /-- 8: EXP_LEN > MAX_BYTES (R119). -/
  | expTooLong
  /-- 9: MOD_LEN > MAX_BYTES (R119). -/
  | modTooLong
  /-- 10: the imported modulus is 0 (R120). -/
  | zeroModulus
  /-- 11: MONTMUL with an even modulus (R196). -/
  | evenModulus
  /-- 12: the exported length exceeds OUT_LEN (R122); unreachable (R123). -/
  | resultGtCap
deriving DecidableEq, Repr

/-- One move of an agent (R9, R60, R112, R260). -/
inductive Event where
  /-- HOST: a read transfer `MemRead(off, 4)` (R60). -/
  | read (off : Offset)
  /-- HOST: a write transfer `MemWrite(off, 4, data, strb)` (R60). -/
  | write (off : Offset) (data : Word) (strb : Strobe)
  /-- ENGINE: an internal step (R112). -/
  | engineInternal
  /-- ENGINE: the completion step (R124). -/
  | engineComplete
  /-- RESET: `rst_n` is asserted and released (R260). -/
  | reset
deriving DecidableEq, Repr

/-- A fault stops the machine. It has no constructor: nothing raises one, since the spec has no fatal condition, no bus
error and no stuck state (R64, R239; 93_implementation_defined.md section 1). Safe: no behaviour is cut off. -/
inductive Fault where
deriving DecidableEq, Repr

/-- Why an instruction has no meaning in the model. -/
inductive Refusal where
  /-- Raised only by `exec`'s arm of an instruction that has no meaning yet; no arm raises it now. Safe: the run stops. -/
  | notModelled (mnemonic : String)
deriving DecidableEq, Repr

/-- Where the reference controllers stand on the running command, between two internal steps (R112, R146, R173). The MODEL's
own division of the ENGINE's work: the spec fixes no number of internal steps. -/
inductive Stage where
  /-- Nothing is imported yet. -/
  | load
  /-- MODEXP scans the exponent, the bit with index `i` next (R146). -/
  | scan
  /-- The last operation is to come. -/
  | exit
  /-- The accumulator holds the result. -/
  | done
deriving DecidableEq, Repr

/-- The datapath's working registers (R40), natural numbers (R10). No transfer reaches them (R160). -/
structure Datapath where
  /-- The first operand, imported (R40). -/
  a : Nat
  /-- The second operand, imported (R40). -/
  e : Nat
  /-- The modulus, imported (R40). -/
  m : Nat
  /-- The reduced base (R40, R144). -/
  bm : Nat
  /-- The base in the Montgomery domain (R40, R145). -/
  xt : Nat
  /-- The accumulator (R40, R145, R147). -/
  acc : Nat
  /-- R mod m (R40, R173). -/
  rm : Nat
  /-- R^2 mod m (R40, R173). -/
  r2 : Nat
  /-- n0' (R40, R163). -/
  n0 : Nat
  /-- mu (R40, R168). -/
  mu : Nat
  /-- The CIOS accumulator as the last MontMul left it (R40, R164). -/
  t : Nat
  /-- The exponent bit index (R21, R40, R146). -/
  i : Nat
  /-- The MODEL's: the stage of the work. -/
  stage : Stage
deriving DecidableEq, Repr

/-- The engine's state (10_state.md R20 to R41), the free-value counters and the events still to come. -/
structure State where
  /-- The parameter MAX_BYTES of this engine, readable in CAPS[15:0] (R8, R24); no step changes it. -/
  maxBytes : Nat
  /-- CTRL.IE (R25). -/
  ctrlIE : Bool
  /-- CTRL.CMD (R25): the opcode of the running command while BUSY = 1. -/
  ctrlCMD : BitVec 8
  /-- STATUS.BUSY (R26), equal to the engine phase (R39). -/
  statusBUSY : Bool
  /-- STATUS.DONE (R26). -/
  statusDONE : Bool
  /-- STATUS.LOCKERR (R26, R27). -/
  statusLOCKERR : Bool
  /-- STATUS.CODE (R26, R95). -/
  statusCODE : BitVec 8
  /-- STATUS.CAUSE (R26, R96). -/
  statusCAUSE : BitVec 4
  /-- ARGS[3:0]: BASE_V, EXP_V, MOD_V, OUT_V (R28). -/
  args : BitVec 4
  /-- BASE_LEN (R29). -/
  baseLen : Word
  /-- EXP_LEN (R30). -/
  expLen : Word
  /-- MOD_LEN (R31). -/
  modLen : Word
  /-- OUT_LEN: capacity, then result length (R32). -/
  outLen : Word
  /-- PERF_CYCLES (R34). -/
  perfCycles : Word
  /-- The buffer bytes written since the last reset, by port offset, rising (R36, R37). -/
  mem : List Host.Cell
  /-- The datapath's working registers (R40), discarded at each completion (R173). The MODEL's reset values: the spec leaves them
  unspecified (R41). -/
  datapath : Datapath
  /-- PRDATA of the last read transfer (R61). The MODEL's reset value. -/
  prdata : Word
  /-- The MODEL's: the events still to come, oldest first (R9). -/
  inputs : List Event
  /-- The MODEL's: how many RESET events there were, the index of the free buffer contents (R37; U1). -/
  resets : Nat
  /-- The MODEL's: how many free clock counts were drawn (R34; U3). -/
  clockDraws : Nat
  /-- The MODEL's: how many times the working registers were discarded, the index of their free values (R173). -/
  discards : Nat
deriving DecidableEq, Repr

/-- The machine right after reset (R41), with the default MAX_BYTES (R8), nothing written (R37) and no event placed. -/
def State.reset : State where
  maxBytes := Config.maxBytesDefault
  ctrlIE := false
  ctrlCMD := 0x00#8
  statusBUSY := false
  statusDONE := false
  statusLOCKERR := false
  statusCODE := 0x00#8
  statusCAUSE := 0#4
  args := 0#4
  baseLen := 0#32
  expLen := 0#32
  modLen := 0#32
  outLen := 0#32
  perfCycles := 0#32
  mem := []
  datapath := ⟨0, 0, 0, 0, 0, 0, 0, 0, 0, 0, 0, 0, .load⟩
  prdata := 0#32
  inputs := []
  resets := 0
  clockDraws := 0
  discards := 0

end Sys2Proof.Machine
end

