-- ==== Sys2Proof/Machine/Flags.lean ====
section
/-! DEFINITION. The flags BUSY, DONE and LOCKERR, the status fields CODE and CAUSE, the phase and `irq`
(10_state.md R25 to R27, R38, R39, R42; 30_encoding.md R95, R96). -/

namespace Sys2Proof.Machine

/-- The CAUSE number of a check, STATUS[19:16] (R96). -/
def Cause.bits : Cause → BitVec 4
  | .none => 0#4
  | .illegalCmd => 1#4
  | .nullBase => 2#4
  | .nullExp => 3#4
  | .nullMod => 4#4
  | .nullOut => 5#4
  | .capLtModLen => 6#4
  | .baseTooLong => 7#4
  | .expTooLong => 8#4
  | .modTooLong => 9#4
  | .zeroModulus => 10#4
  | .evenModulus => 11#4
  | .resultGtCap => 12#4

/-- The source's return status of a check: 0, -1, -2 or -3 (R95, R96). -/
def Cause.status : Cause → Int
  | .none => 0
  | .illegalCmd => -1
  | .nullBase => -1
  | .nullExp => -1
  | .nullMod => -1
  | .nullOut => -1
  | .capLtModLen => -2
  | .baseTooLong => -3
  | .expTooLong => -3
  | .modTooLong => -3
  | .zeroModulus => -1
  | .evenModulus => -1
  | .resultGtCap => -2

/-- The CODE byte of a check: the return status as 8-bit two's complement (R95). -/
def Cause.code (c : Cause) : BitVec 8 := BitVec.ofInt 8 c.status

/-- The word a read of STATUS returns: {12'b0, CAUSE, CODE, 5'b0, LOCKERR, DONE, BUSY} (R26). -/
def State.statusWord (s : State) : Word :=
  0#12 ++ s.statusCAUSE ++ s.statusCODE ++ 0#5 ++ BitVec.ofBool s.statusLOCKERR ++
    BitVec.ofBool s.statusDONE ++ BitVec.ofBool s.statusBUSY

/-- The word a read of CTRL returns: {16'b0, CMD, 6'b0, IE, 1'b0} (R25). -/
def State.ctrlRead (s : State) : Word := ctrlWord s.ctrlCMD s.ctrlIE false

/-- The engine phase (R39). -/
inductive Phase where
  | idle | run
deriving DecidableEq, Repr

/-- The phase is BUSY under another name (R39). -/
def State.phase (s : State) : Phase := if s.statusBUSY then .run else .idle

/-- The level output `irq` = CTRL.IE AND STATUS.DONE (R38, R226). -/
def State.irq (s : State) : Bool := s.ctrlIE && s.statusDONE

/-- A write dropped because BUSY = 1 sets LOCKERR (R27, R68). -/
def State.lockError (s : State) : State := { s with statusLOCKERR := true }

/-- A full-strobe write to STATUS: bit 1 clears DONE, bit 2 clears LOCKERR, every other bit is ignored (R27). -/
def State.writeStatus (w : Word) (s : State) : State :=
  { s with
    statusDONE := s.statusDONE && !w.getLsbD 1
    statusLOCKERR := s.statusLOCKERR && !w.getLsbD 2 }

/-- The working registers with every value discarded: free values, and no work begun. DESIGN CHOICE (log 27): the spec says that
the values do not survive a command (R18, R173) and leaves open what the registers hold instead (R40). -/
def discardedDatapath (n : Nat) : Datapath where
  a := Config.discardedRegister n 0
  e := Config.discardedRegister n 1
  m := Config.discardedRegister n 2
  bm := Config.discardedRegister n 3
  xt := Config.discardedRegister n 4
  acc := Config.discardedRegister n 5
  rm := Config.discardedRegister n 6
  r2 := Config.discardedRegister n 7
  n0 := Config.discardedRegister n 8
  mu := Config.discardedRegister n 9
  t := Config.discardedRegister n 10
  i := Config.discardedRegister n 11
  stage := .load

/-- The working registers' values are discarded (R18, R163, R168, R173). -/
def State.discardDatapath (s : State) : State :=
  { s with
    datapath := discardedDatapath s.discards
    discards := s.discards + 1 }

/-- Acceptance of the command with opcode `cmd`, with the IE bit of the same write (R110, R111). What the working registers hold
at acceptance is open (R40): free values, so nothing of an earlier command stands in them (R18; DESIGN CHOICE, log 27). -/
def State.accept (cmd : BitVec 8) (ie : Bool) (s : State) : State :=
  { s.discardDatapath with
    ctrlIE := ie
    ctrlCMD := cmd
    statusBUSY := true
    statusDONE := false
    statusCODE := 0x00#8
    statusCAUSE := 0#4
    perfCycles := 0#32 }

/-- The end of every completion: CODE and CAUSE of the check that decided, BUSY 0, DONE 1 (R124), and the working registers'
values discarded (R18, R163, R168, R173; DESIGN CHOICE, log 27: free values stand there until the next command's load). -/
def State.finish (c : Cause) (s : State) : State :=
  { s.discardDatapath with
    statusBUSY := false
    statusDONE := true
    statusCODE := c.code
    statusCAUSE := c.bits }

/-- A 32-bit count plus `k` clocks, saturating at 0xFFFFFFFF (R13, R34). -/
def saturatingCount (w : Word) (k : Nat) : Word :=
  if w.toNat + k < 2 ^ 32 then BitVec.ofNat 32 (w.toNat + k) else 0xFFFFFFFF#32

/-- The clock runs between two steps: while BUSY = 1, PERF_CYCLES counts a free number of clocks (R34; U3). -/
def State.tick (s : State) : State :=
  if s.statusBUSY then
    { s with
      perfCycles := saturatingCount s.perfCycles (Config.elapsedClocks s.clockDraws)
      clockDraws := s.clockDraws + 1 }
  else s

end Sys2Proof.Machine
end

