-- ==== Sys2Proof/Machine/Ops.lean ====
section
/-! DEFINITION. The named operations over the buffers and the registers (10_state.md, 20_memory.md), and the engine's one
exception, the error completion (60_exceptions.md R220, R228). There is no return from it (R229): the host clears DONE
(`State.writeStatus`) or the next acceptance does (`State.accept`). -/

namespace Sys2Proof.Machine

/-- The canonical form of memory: addresses strictly rising. A byte that nothing has written since reset has no entry and no
value of its own here, so no entry can equal one (R36, R37). -/
abbrev Memory.wf (m : List Host.Cell) : Prop := m.Pairwise fun a b => a.1 < b.1

/-- What an unlisted address reads as: the free value of this reset (R37; U1). -/
def Memory.unlisted (resets addr : Nat) : Byte := Config.resetByte resets addr

/-- The byte written at an address since reset, if any. -/
def Memory.get : List Host.Cell → Nat → Option Byte
  | [], _ => none
  | c :: m, addr => if c.1 = addr then some c.2 else Memory.get m addr

/-- Write one byte, keeping the addresses rising. -/
def Memory.set : List Host.Cell → Nat → Byte → List Host.Cell
  | [], addr, b => [(addr, b)]
  | c :: m, addr, b =>
    if addr < c.1 then (addr, b) :: c :: m
    else if addr = c.1 then (addr, b) :: m
    else c :: Memory.set m addr b

/-- Write bytes at consecutive addresses, the first at `addr`. -/
def Memory.setBytes (m : List Host.Cell) (addr : Nat) : List Byte → List Host.Cell
  | [] => m
  | b :: bs => Memory.setBytes (Memory.set m addr b) (addr + 1) bs

/-- `n` zero bytes from an address on, as cells. -/
def Memory.zeroCells (addr n : Nat) : List Host.Cell := (List.range n).map fun i => (addr + i, 0#8)

/-- The port offset of byte 0 of a buffer (R35, R36). -/
def Buf.window : Buf → Nat
  | .base => 0x1000
  | .exp => 0x2000
  | .mod => 0x3000
  | .out => 0x4000

/-- BUF_X[i]: 0 at or above MAX_BYTES, which no storage backs (R36, R67). -/
def State.readByte (s : State) (X : Buf) (i : Nat) : Byte :=
  if i < s.maxBytes then
    (Memory.get s.mem (X.window + i)).getD (Memory.unlisted s.resets (X.window + i))
  else 0#8

/-- BUF_X[i], BUF_X[i+1], ... <- the given bytes (R77). -/
def State.writeBytes (X : Buf) (i : Nat) (bytes : List Byte) (s : State) : State :=
  { s with mem := Memory.setBytes s.mem (X.window + i) bytes }

/-- BUF_X[i] <- 0x00 for every X and every i < MAX_BYTES (R124, R204). -/
def State.zeroBuffers (s : State) : State :=
  { s with mem := Memory.zeroCells Buf.base.window s.maxBytes ++ Memory.zeroCells Buf.exp.window s.maxBytes ++
      Memory.zeroCells Buf.mod.window s.maxBytes ++ Memory.zeroCells Buf.out.window s.maxBytes }

/-- Lane `j` of a word, bits 8j+7 to 8j (R61, R62). -/
def lane (w : Word) (j : Nat) : Byte := w.extractLsb' (8 * j) 8

/-- One lane of a window write: its byte is written if its strobe is 1 and storage backs it (R62, R65, R67). -/
def State.writeLane (X : Buf) (o : Nat) (data : Word) (strb : Strobe) (s : State) (j : Nat) : State :=
  if strb.getLsbD j = true ∧ o + j < s.maxBytes then s.writeBytes X (o + j) [lane data j] else s

/-- A window write at window offset `o`, lanes 0 to 3 (R62). -/
def State.writeWindow (X : Buf) (o : Nat) (data : Word) (strb : Strobe) (s : State) : State :=
  [0, 1, 2, 3].foldl (State.writeLane X o data strb) s

/-- A window read at window offset `o`: lane 0 is the byte at the lowest address (R62); 0 while BUSY = 1 (R68). -/
def State.readWindow (s : State) (X : Buf) (o : Nat) : Word :=
  if s.statusBUSY then 0#32
  else s.readByte X (o + 3) ++ s.readByte X (o + 2) ++ s.readByte X (o + 1) ++ s.readByte X o

/-- The registers of R35. -/
inductive Reg where
  | id | version | caps | ctrl | status | args | baseLen | expLen | modLen | outLen | perfCycles
deriving DecidableEq, Repr

/-- What a port offset selects (R35). -/
inductive Target where
  | reg (r : Reg)
  | window (X : Buf) (o : Nat)
  | reserved
deriving DecidableEq, Repr

/-- The register at an aligned offset below 0x1000 (R35, R33). -/
def regAt (a : Nat) : Target :=
  if a = 0x000 then .reg .id
  else if a = 0x004 then .reg .version
  else if a = 0x008 then .reg .caps
  else if a = 0x010 then .reg .ctrl
  else if a = 0x014 then .reg .status
  else if a = 0x018 then .reg .args
  else if a = 0x020 then .reg .baseLen
  else if a = 0x024 then .reg .expLen
  else if a = 0x028 then .reg .modLen
  else if a = 0x02C then .reg .outLen
  else if a = 0x030 then .reg .perfCycles
  else .reserved

/-- The target of an aligned offset (R35). -/
def targetAt (a : Nat) : Target :=
  if a < 0x1000 then regAt a
  else if a < 0x2000 then .window .base (a - 0x1000)
  else if a < 0x3000 then .window .exp (a - 0x2000)
  else if a < 0x4000 then .window .mod (a - 0x3000)
  else if a < 0x5000 then .window .out (a - 0x4000)
  else .reserved

/-- Address decoding: a transfer at `off` acts as one at `off AND 0x7FFC` (R63, R35). -/
def target (off : Offset) : Target := targetAt (off &&& 0x7FFC#15).toNat

/-- ID: the ASCII bytes "MEXP" (R22). -/
def idWord : Word := 0x4D455850#32

/-- VERSION: MAJOR 1, MINOR 0 (R23). -/
def versionWord : Word := 0x00010000#32

/-- CAPS: the bitmap of legal opcodes over MAX_BYTES (R24). -/
def State.capsWord (s : State) : Word := 0x801E#16 ++ BitVec.ofNat 16 s.maxBytes

/-- The word a read of a register returns (R22 to R34, R69). -/
def State.readReg (s : State) : Reg → Word
  | .id => idWord
  | .version => versionWord
  | .caps => s.capsWord
  | .ctrl => s.ctrlRead
  | .status => s.statusWord
  | .args => s.args.setWidth 32
  | .baseLen => s.baseLen
  | .expLen => s.expLen
  | .modLen => s.modLen
  | .outLen => s.outLen
  | .perfCycles => s.perfCycles

/-- The word a read transfer returns (R62, R33, R35). -/
def State.readWord (s : State) (off : Offset) : Word :=
  match target off with
  | .reg r => s.readReg r
  | .window X o => s.readWindow X o
  | .reserved => 0#32

/-- A read transfer: PRDATA gets the word, nothing else changes (R60, R70). -/
def State.hostRead (off : Offset) (s : State) : State := { s with prdata := s.readWord off }

/-- A full-strobe write to a register that locks while BUSY = 1 (R27 to R32, R68). -/
def State.lockedWrite (write : State → State) (s : State) : State :=
  if s.statusBUSY then s.lockError else write s

/-- A full-strobe write to a register other than CTRL (R22 to R34). -/
def State.writeReg (r : Reg) (w : Word) (s : State) : State :=
  match r with
  | .id => s
  | .version => s
  | .caps => s
  | .ctrl => s
  | .status => s.writeStatus w
  | .args => s.lockedWrite fun s => { s with args := w.extractLsb' 0 4 }
  | .baseLen => s.lockedWrite fun s => { s with baseLen := w }
  | .expLen => s.lockedWrite fun s => { s with expLen := w }
  | .modLen => s.lockedWrite fun s => { s with modLen := w }
  | .outLen => s.lockedWrite fun s => { s with outLen := w }
  | .perfCycles => s

/-- A full-strobe CTRL write that accepts no command while BUSY = 0: it sets IE and CMD (R110). -/
def State.writeCtrlIdle (w : Word) (s : State) : State :=
  { s with ctrlIE := fieldIE w, ctrlCMD := fieldCMD w }

/-- A full-strobe CTRL write while BUSY = 1: it writes IE, ignores CMD, and START = 1 sets LOCKERR (R68). -/
def State.writeCtrlBusy (w : Word) (s : State) : State :=
  { s with ctrlIE := fieldIE w, statusLOCKERR := s.statusLOCKERR || fieldSTART w }

/-- A write transfer to a window: dropped with LOCKERR while BUSY = 1, whatever its strobes (R62, R65, R68). -/
def State.hostWriteWindow (X : Buf) (o : Nat) (data : Word) (strb : Strobe) (s : State) : State :=
  if s.statusBUSY then s.lockError else s.writeWindow X o data strb

/-- TAKING AN EXCEPTION: the error completion. It records CODE and CAUSE, clears BUSY and sets DONE, and changes nothing
else that a host can see: no operand, no length, no output byte (R124, R125, R222, R228). -/
def raiseError (c : Cause) (s : State) : State := s.finish c

/-- RESET: every register takes its reset value, the buffers hold new free values; MAX_BYTES, the host's last read data and
the events to come are not the engine's registers (R260, R262, R41, R37). -/
def State.resetEvent (s : State) : State :=
  { State.reset with
    maxBytes := s.maxBytes
    prdata := s.prdata
    inputs := s.inputs
    resets := s.resets + 1
    clockDraws := s.clockDraws
    discards := s.discards }

/-- The port's outputs (R61). -/
structure PortOut where
  prdata : Word
  pready : Bool
  pslverr : Bool
  irq : Bool
deriving DecidableEq, Repr

/-- PREADY is tied to 1 and PSLVERR to 0 (R61, R64). -/
def State.portOut (s : State) : PortOut := ⟨s.prdata, true, false, s.irq⟩

end Sys2Proof.Machine
end

