-- ==== Sys2Proof/Machine/Operands.lean ====
section
/-! DEFINITION. The operand roles of the commands, Import and Export (30_encoding.md R93, R94; 20_memory.md R75, R76). -/

namespace Sys2Proof.Machine

/-- The commands that compute a result (R121). -/
inductive ArithOp where
  | modexp | modmul | modred | montmul
deriving DecidableEq, Repr

/-- The operands a command needs (R93): MODRED does not need EXP. -/
def ArithOp.needs : ArithOp → Buf → Bool
  | .modred, .exp => false
  | _, _ => true

/-- The ARGS bit of an operand: BASE_V, EXP_V, MOD_V, OUT_V (R28). -/
def State.present (s : State) : Buf → Bool
  | .base => s.args.getLsbD 0
  | .exp => s.args.getLsbD 1
  | .mod => s.args.getLsbD 2
  | .out => s.args.getLsbD 3

/-- The length register of an operand; for OUT the capacity (R29 to R32). -/
def State.lenOf (s : State) : Buf → Nat
  | .base => s.baseLen.toNat
  | .exp => s.expLen.toNat
  | .mod => s.modLen.toNat
  | .out => s.outLen.toNat

/-- Import(X): the big-endian number in BUF_X[0..L-1], L = X_LEN (R75). -/
def State.importValue (s : State) (X : Buf) : Nat :=
  ((List.range (s.lenOf X)).map fun i => (s.readByte X i).toNat * 256 ^ (s.lenOf X - 1 - i)).sum

/-- The number of bits without leading zeros, 0 for 0 (R10). -/
def bitlen (v : Nat) : Nat := if v = 0 then 0 else Nat.log2 v + 1

/-- The length n of Export(r) (R76). -/
def exportLength (r : Nat) : Nat := max 1 ((bitlen r + 7) / 8)

/-- The bytes B[0..n-1] of Export(r), most significant first (R76). -/
def exportBytes (r : Nat) : List Byte :=
  (List.range (exportLength r)).map fun i => BitVec.ofNat 8 (r / 256 ^ (exportLength r - 1 - i) % 256)

end Sys2Proof.Machine
end

