-- ==== Sys2Proof/Machine/Arith.lean ====
section
/-! DEFINITION. The commands' own functions on naturals (40_command_protocol.md R121; 00_scope.md R10, R13). -/

namespace Sys2Proof.Machine

/-- Left-to-right square and multiply modulo `m` over the `n` low bits of `e`, from the accumulator `acc` (R147). -/
def powModBits (b e m : Nat) : Nat → Nat → Nat
  | 0, acc => acc
  | n + 1, acc =>
    powModBits b e m n (if e.testBit n then acc * acc % m * b % m else acc * acc % m)

/-- pow(b, e) mod m, computed without the full power (R140, R147). -/
def powMod (b e m : Nat) : Nat := powModBits (b % m) e m (bitlen e) (1 % m)

/-- Extended Euclid on the remainders `r0`, `r1`; `t0`, `t1` are their coefficients of `a`, modulo `m`. -/
def euclidCoeff (m : Nat) : Nat → Nat → Nat → Nat → Nat → Nat
  | 0, _, _, t0, _ => t0
  | fuel + 1, r0, r1, t0, t1 =>
    if r1 = 0 then t0
    else euclidCoeff m fuel r1 (r0 % r1) t1 ((t0 + (m - r0 / r1 % m) * t1) % m)

/-- ModInv(a, m): the x < m with (a * x) mod m = 1 mod m, where gcd(a, m) = 1 (R10). -/
def modInv (a m : Nat) : Nat := euclidCoeff m (m + 1) m (a % m) 0 (1 % m)

/-- k, the limb count of the modulus: max(1, ceil(bitlen(m) / 64)) (R16, R161). -/
def limbCount (m : Nat) : Nat := max 1 ((bitlen m + (Config.limbBits - 1)) / Config.limbBits)

/-- R, the Montgomery radix 2^(64 k) (R16, R197). -/
def montRadix (m : Nat) : Nat := 2 ^ (Config.limbBits * limbCount m)

/-- Compute(op, a, e, m) (R121). -/
def compute (op : ArithOp) (a e m : Nat) : Nat :=
  match op with
  | .modexp => powMod a e m
  | .modmul => a * e % m
  | .modred => a % m
  | .montmul => a * e * modInv (montRadix m) m % m

end Sys2Proof.Machine
end

