-- ==== Sys2Proof/Machine/Command.lean ====
section
/-! DEFINITION. The checks, the outcome and the two moves of a command (40_command_protocol.md R110 to R124). The running
command's inputs S0 are the locked state itself (R68, R81, R111). -/

namespace Sys2Proof.Machine

/-- The outcome of a command (R113): Write(n, B) with n the number of bytes, Zeroize, or Error(cause). -/
inductive CmdOutcome where
  | write (bytes : List Byte)
  | zeroize
  | error (c : Cause)
deriving DecidableEq, Repr

/-- Step 1, first part: the first needed operand whose handle is absent, in the order BASE, EXP, MOD, OUT (R116). -/
def checkHandles (op : ArithOp) (s : State) : Option Cause :=
  if op.needs .base && !s.present .base then some .nullBase
  else if op.needs .exp && !s.present .exp then some .nullExp
  else if op.needs .mod && !s.present .mod then some .nullMod
  else if op.needs .out && !s.present .out then some .nullOut
  else none

/-- Step 1, second part: the capacity against the modulus's byte length (R117; 90_conflicts.md C1, C2). -/
def checkCapacity (s : State) : Option Cause :=
  if s.outLen < s.modLen then some .capLtModLen else none

/-- Step 2: the first needed operand longer than its window, in the order BASE, EXP, MOD (R119). -/
def checkLengths (op : ArithOp) (s : State) : Option Cause :=
  if s.lenOf .base > s.maxBytes then some .baseTooLong
  else if op.needs .exp && decide (s.lenOf .exp > s.maxBytes) then some .expTooLong
  else if s.lenOf .mod > s.maxBytes then some .modTooLong
  else none

/-- Step 3: the modulus is not 0, and for MONTMUL odd (R120, R196). -/
def checkModulus (op : ArithOp) (m : Nat) : Option Cause :=
  if m = 0 then some .zeroModulus
  else if op = .montmul ∧ m % 2 = 0 then some .evenModulus
  else none

/-- The checks made before any operand byte is imported (R113, R118). -/
def checkArguments (op : ArithOp) (s : State) : Option Cause :=
  ((checkHandles op s).or (checkCapacity s)).or (checkLengths op s)

/-- Steps 5 and 6: export with the second capacity check (R122). -/
def exportResult (r : Nat) (s : State) : CmdOutcome :=
  if exportLength r > s.lenOf .out then .error .resultGtCap else .write (exportBytes r)

/-- The second operand: Import(EXP) where the command needs EXP, else 0 (R113). -/
def secondOperand (op : ArithOp) (s : State) : Nat :=
  if op.needs .exp then s.importValue .exp else 0

/-- Execute(S0) for a command that computes a result: the first failing check decides (R113, R224). -/
def execute (op : ArithOp) (s : State) : CmdOutcome :=
  match checkArguments op s with
  | some c => .error c
  | none =>
    match checkModulus op (s.importValue .mod) with
    | some c => .error c
    | none =>
      exportResult (compute op (s.importValue .base) (secondOperand op s) (s.importValue .mod)) s

/-- Write(n, B): BUF_OUT[0..n-1] <- B, OUT_LEN <- n, status success (R124, R77). -/
def completeWrite (bytes : List Byte) (s : State) : State :=
  State.finish .none { s.writeBytes .out 0 bytes with outLen := BitVec.ofNat 32 bytes.length }

/-- The completion step (R124). -/
def complete (o : CmdOutcome) (s : State) : State :=
  match o with
  | .write bytes => completeWrite bytes s
  | .zeroize => s.zeroBuffers.finish .none
  | .error c => raiseError c s

/-- A command's next move. While BUSY = 0, acceptance of the command word (R110, R111); while BUSY = 1, when the ENGINE
completes, the completion step with the command's outcome (R112, R124). A START write while BUSY = 1 is no move of a
command: the bus drops it (`State.writeCtrlBusy`, R68). -/
def runCommand (cmd : BitVec 8) (ie : Bool) (outcome : State → CmdOutcome) (s : State) :
    Host.Outcome State Fault Refusal :=
  if s.statusBUSY then .next (complete (outcome s) s) else .next (s.accept cmd ie)

end Sys2Proof.Machine
end

