-- ==== Sys2Proof/Machine/Datapath.lean ====
section
/-! DEFINITION. The modular datapath and the exponentiation controller as the spec's reference design gives them
(42_datapath.md, 41_modexp.md R144 to R149), and the ENGINE's internal steps on the working registers (R112). No transfer
reads a datapath value (R160); the commands use the laws (Machine/Arith.lean), and obligations state that the datapath meets
them. -/

namespace Sys2Proof.Machine

/-- beta = 2^64 (R161). -/
def beta : Nat := 2 ^ Config.limbBits

/-- Limb `i` of `x` (R16, R161). -/
def limb (i x : Nat) : Nat := x / 2 ^ (Config.limbBits * i) % beta

/-- The Newton iteration x <- x * (2 - m0 * x) mod 2^64, repeated (R163). -/
def newtonInverse (m0 : Nat) : Nat → Nat → Nat
  | 0, x => x
  | n + 1, x => newtonInverse m0 n (x * (2 + beta - m0 * x % beta) % beta)

/-- n0' of an odd modulus, by six Newton steps from 1 (R163). -/
def montConstant (m : Nat) : Nat := (beta - newtonInverse (m % beta) 6 1) % beta

/-- One CIOS iteration of MontMul, for limb `i` of `a` (R164). -/
def montMulStep (a b m n0 t i : Nat) : Nat :=
  let t := t + limb i a * b
  let u := t % beta * n0 % beta
  (t + u * m) / beta

/-- MontMul in word-serial CIOS form, with the one conditional subtraction (R164, R165). -/
def montMul (a b m : Nat) : Nat :=
  let t := (List.range (limbCount m)).foldl (montMulStep a b m (montConstant m)) 0
  if t ≥ m then t - m else t

/-- mu = beta^(2k) div m (R168). -/
def barrettMu (m : Nat) : Nat := beta ^ (2 * limbCount m) / m

/-- The quotient estimate q3 of BarrettReduce (R169). -/
def barrettQuotient (x m : Nat) : Nat :=
  x / beta ^ (limbCount m - 1) * barrettMu m / beta ^ (limbCount m + 1)

/-- One turn of the correction loop: subtract `m` if r >= m (R169). -/
def correctOnce (m r : Nat) : Nat := if r ≥ m then r - m else r

/-- BarrettReduce: the correction loop runs at most twice (R169, R170). -/
def barrettReduce (x m : Nat) : Nat :=
  correctOnce m (correctOnce m (x - barrettQuotient x m * m))

/-- ReduceLong: limb by limb from the most significant end (R172). -/
def reduceLong (x m : Nat) : Nat :=
  (List.range (limbCount x)).reverse.foldl (fun r j => barrettReduce (r * beta + limb j x) m) 0

/-- The orders of squarings and multiplications R149 names; EXP_SCHEDULE of R8. A window of argument `w` is `w + 1` bits wide. -/
inductive ExpSchedule where
  | leftToRight
  | rightToLeft
  | fixedWindow (w : Nat)
  | slidingWindow (w : Nat)
deriving DecidableEq, Repr

/-- Left-to-right binary (R145, R147): `mul` is the datapath's product, `one` its unit, `x` the base. -/
def expLeftToRight (mul : Nat → Nat → Nat) (one x e : Nat) : Nat :=
  (List.range (bitlen e)).reverse.foldl
    (fun acc i => if e.testBit i then mul (mul acc acc) x else mul acc acc) one

/-- Right-to-left binary (R149): the second component is the running square of `x`. -/
def expRightToLeft (mul : Nat → Nat → Nat) (one x e : Nat) : Nat :=
  ((List.range (bitlen e)).foldl
    (fun p i => (if e.testBit i then mul p.1 p.2 else p.1, mul p.2 p.2)) (one, x)).1

/-- `n` squarings. -/
def squareTimes (mul : Nat → Nat → Nat) : Nat → Nat → Nat
  | 0, acc => acc
  | n + 1, acc => squareTimes mul n (mul acc acc)

/-- `acc` multiplied `n` times by `x`. -/
def mulTimes (mul : Nat → Nat → Nat) (x : Nat) : Nat → Nat → Nat
  | 0, acc => acc
  | n + 1, acc => mulTimes mul x n (mul acc x)

/-- Fixed windows of `w` bits, most significant first; the table entry of digit `d` is `one` times `x`, `d` times (R149). -/
def expFixedWindow (mul : Nat → Nat → Nat) (one x e w : Nat) : Nat :=
  (List.range ((bitlen e + (w - 1)) / w)).reverse.foldl
    (fun acc j => mul (squareTimes mul w acc) (mulTimes mul x (e / 2 ^ (w * j) % 2 ^ w) one)) one

/-- The longest window of at most `l` bits whose top bit is bit `n` of `e` and whose lowest bit is 1; at least one bit. -/
def windowLength (e n : Nat) : Nat → Nat
  | 0 => 1
  | l + 1 => if e.testBit (n - l) then l + 1 else windowLength e n l

/-- The odd power of `x` of a sliding window: `x` times the square of `x`, (v - 1) / 2 times (R149). -/
def oddPower (mul : Nat → Nat → Nat) (x v : Nat) : Nat := mulTimes mul (mul x x) ((v - 1) / 2) x

/-- Sliding windows of at most `w` bits over the `n` low bits of `e`, with a table of odd powers (R149). -/
def expSlidingWindow (mul : Nat → Nat → Nat) (x e w : Nat) : Nat → Nat → Nat → Nat
  | 0, _, acc => acc
  | _ + 1, 0, acc => acc
  | fuel + 1, n + 1, acc =>
    if e.testBit n then
      let l := windowLength e n (min w (n + 1))
      expSlidingWindow mul x e w fuel (n + 1 - l)
        (mul (squareTimes mul l acc) (oddPower mul x (e / 2 ^ (n + 1 - l) % 2 ^ l)))
    else expSlidingWindow mul x e w fuel n (mul acc acc)

/-- The exponentiation controller under a schedule (R144, R149). -/
def runSchedule (sched : ExpSchedule) (mul : Nat → Nat → Nat) (one x e : Nat) : Nat :=
  match sched with
  | .leftToRight => expLeftToRight mul one x e
  | .rightToLeft => expRightToLeft mul one x e
  | .fixedWindow w => expFixedWindow mul one x e (w + 1)
  | .slidingWindow w => expSlidingWindow mul x e (w + 1) (bitlen e) (bitlen e) one

/-- The odd-modulus sequence, in the Montgomery domain (R145). -/
def modexpOdd (sched : ExpSchedule) (b e m : Nat) : Nat :=
  let bm := reduceLong b m
  let rm := reduceLong (montRadix m) m
  let r2 := barrettReduce (rm * rm) m
  let xt := montMul bm r2 m
  montMul (runSchedule sched (fun x y => montMul x y m) rm xt e) (1 % m) m

/-- The even-modulus sequence, on the Barrett pipeline (R147). -/
def modexpEven (sched : ExpSchedule) (b e m : Nat) : Nat :=
  runSchedule sched (fun x y => barrettReduce (x * y) m) (1 % m) (reduceLong b m) e

/-- What the datapath computes for each command (R144, R174 to R177). -/
def computeDatapath (sched : ExpSchedule) (op : ArithOp) (a e m : Nat) : Nat :=
  match op with
  | .modexp => if m % 2 = 1 then modexpOdd sched a e m else modexpEven sched a e m
  | .modmul => barrettReduce (reduceLong a m * reduceLong e m) m
  | .modred => reduceLong a m
  | .montmul => montMul (reduceLong a m) (reduceLong e m) m

/-! ## The internal steps -/

/-- The result-computing command of an opcode (R91). -/
def arithOp (cmd : BitVec 8) : Option ArithOp :=
  if cmd = 0x01#8 then some .modexp
  else if cmd = 0x02#8 then some .modmul
  else if cmd = 0x03#8 then some .modred
  else if cmd = 0x04#8 then some .montmul
  else none

/-- MODEXP's own setup: the domain of an odd modulus, the accumulator and the bit index (R145, R146, R147, R173). -/
def setupModexp (d : Datapath) : Datapath :=
  let rm := reduceLong (montRadix d.m) d.m
  let r2 := barrettReduce (rm * rm) d.m
  let xt := montMul d.bm r2 d.m
  let d := if d.m % 2 = 1 then { d with n0 := montConstant d.m, rm := rm, r2 := r2, xt := xt, t := xt, acc := rm }
    else { d with acc := 1 % d.m }
  { d with i := bitlen d.e - 1, stage := if d.e = 0 then .exit else .scan }

/-- The setup of a command whose checks passed: import and per-command constants (R144, R173). -/
def loadDatapath (op : ArithOp) (a e m : Nat) (d : Datapath) : Datapath :=
  let d := { d with a := a, e := e, m := m, bm := reduceLong a m, mu := barrettMu m }
  match op with
  | .modexp => setupModexp d
  | .modmul => { d with stage := .exit }
  | .modred => { d with stage := .exit }
  | .montmul => { d with n0 := montConstant m, stage := .exit }

/-- One iteration of the exponent scan, for bit `i`: square, and multiply if the bit is 1 (R145, R146, R147). -/
def scanBit (d : Datapath) : Datapath :=
  let next : Stage := if d.i = 0 then .exit else .scan
  if d.m % 2 = 1 then
    let square := montMul d.acc d.acc d.m
    let acc := if d.e.testBit d.i then montMul square d.xt d.m else square
    { d with acc := acc, t := acc, i := d.i - 1, stage := next }
  else
    let square := barrettReduce (d.acc * d.acc) d.m
    let acc := if d.e.testBit d.i then barrettReduce (square * d.bm) d.m else square
    { d with acc := acc, i := d.i - 1, stage := next }

/-- The last operation of a command: the accumulator gets the result (R145, R147, R175, R176, R177). -/
def leaveDatapath (op : ArithOp) (d : Datapath) : Datapath :=
  match op with
  | .modexp =>
    if d.m % 2 = 1 then
      let r := montMul d.acc (1 % d.m) d.m
      { d with acc := r, t := r, stage := .done }
    else { d with stage := .done }
  | .modmul => { d with acc := barrettReduce (d.bm * reduceLong d.e d.m) d.m, stage := .done }
  | .modred => { d with acc := d.bm, stage := .done }
  | .montmul =>
    let r := montMul d.bm (reduceLong d.e d.m) d.m
    { d with acc := r, t := r, stage := .done }

/-- The next stage of the work on a result-computing command. A command whose checks fail imports nothing (R118). -/
def nextDatapath (op : ArithOp) (s : State) : Datapath :=
  match s.datapath.stage with
  | .load =>
    if checkArguments op s = none ∧ checkModulus op (s.importValue .mod) = none then
      loadDatapath op (s.importValue .base) (secondOperand op s) (s.importValue .mod) s.datapath
    else s.datapath
  | .scan => scanBit s.datapath
  | .exit => leaveDatapath op s.datapath
  | .done => s.datapath

/-- An internal step of the ENGINE: the working registers alone change, and only while a result-computing command runs
(R112, R160, R174). -/
def State.internalStep (s : State) : State :=
  if s.statusBUSY then
    match arithOp s.ctrlCMD with
    | some op => { s with datapath := nextDatapath op s }
    | none => s
  else s

end Sys2Proof.Machine
end

