-- ==== Sys2Proof/Machine/Auxiliary.lean ====
section
/-! DEFINITION. The meanings of MODMUL, MODRED, MONTMUL and ZEROIZE, and the illegal command (43_aux_commands.md). -/

namespace Sys2Proof.Machine

/-- MODMUL: r = (A * B) mod m, A = Import(BASE), B = Import(EXP) (R190). -/
def execModmul (ie : Bool) (s : State) : Host.Outcome State Fault Refusal :=
  runCommand 0x02#8 ie (execute .modmul) s

/-- MODRED: r = A mod m; EXP, EXP_LEN and EXP_V are not read (R193). -/
def execModred (ie : Bool) (s : State) : Host.Outcome State Fault Refusal :=
  runCommand 0x03#8 ie (execute .modred) s

/-- MONTMUL: r = (A * B * ModInv(R, m)) mod m for odd m (R196). -/
def execMontmul (ie : Bool) (s : State) : Host.Outcome State Fault Refusal :=
  runCommand 0x04#8 ie (execute .montmul) s

/-- ZEROIZE: no operand, no check; every buffer byte <- 0x00 at completion (R204, R115). -/
def execZeroize (ie : Bool) (s : State) : Host.Outcome State Fault Refusal :=
  runCommand 0x0F#8 ie (fun _ => .zeroize) s

/-- The illegal command, any other CMD value: accepted, then ILLEGAL_CMD; nothing is read (R207, R115). -/
def execIllegal (cmd : BitVec 8) (ie : Bool) (s : State) : Host.Outcome State Fault Refusal :=
  runCommand cmd ie (fun _ => .error .illegalCmd) s

end Sys2Proof.Machine
end

