-- ==== Sys2Proof/Machine/Modexp.lean ====
section
/-! DEFINITION. The meaning of MODEXP (41_modexp.md R140 to R143). -/

namespace Sys2Proof.Machine

/-- MODEXP: r = pow(Import(BASE), Import(EXP)) mod Import(MOD) (R140). -/
def execModexp (ie : Bool) (s : State) : Host.Outcome State Fault Refusal :=
  runCommand 0x01#8 ie (execute .modexp) s

end Sys2Proof.Machine
end

