-- ==== Sys2Proof/Machine/Dispatch.lean ====
section
/-! DEFINITION. One arm per command. -/

namespace Sys2Proof.Machine

/-- The next move of a command: acceptance while BUSY = 0, completion while BUSY = 1. -/
def exec (i : Instr) (s : State) : Host.Outcome State Fault Refusal :=
  match i with
  | .modexp ie => Sys2Proof.Machine.execModexp ie s
  | .modmul ie => Sys2Proof.Machine.execModmul ie s
  | .modred ie => Sys2Proof.Machine.execModred ie s
  | .montmul ie => Sys2Proof.Machine.execMontmul ie s
  | .zeroize ie => Sys2Proof.Machine.execZeroize ie s

end Sys2Proof.Machine
end

