-- ==== Sys2Proof/Machine/Bus.lean ====
section
/-! DEFINITION. The agents' steps: the host's transfers, the ENGINE's completion, RESET, and which agent moves next
(00_scope.md R9; 20_memory.md R60 to R70; 40_command_protocol.md R110 to R112; 70_reset_and_hazards.md R260). -/

namespace Sys2Proof.Machine

/-- A CTRL word takes its next move: a legal command is executed, an illegal one is run as such, and a word with START = 0
only sets IE and CMD (R91, R92, R110). -/
def runWord (w : Word) (s : State) : Host.Outcome State Fault Refusal :=
  match decode w with
  | .ok i => exec i s
  | .error (.illegalCommand cmd ie) => execIllegal cmd ie s
  | .error .notACommand => .next (s.writeCtrlIdle w)

/-- A full-strobe CTRL write (R68, R110). -/
def writeCtrl (w : Word) (s : State) : Host.Outcome State Fault Refusal :=
  if s.statusBUSY then .next (s.writeCtrlBusy w) else runWord w s

/-- A write transfer (R62, R66, R68). -/
def hostWrite (off : Offset) (data : Word) (strb : Strobe) (s : State) : Host.Outcome State Fault Refusal :=
  match target off with
  | .reg .ctrl => if strb = 0b1111#4 then writeCtrl data s else .next s
  | .reg r => .next (if strb = 0b1111#4 then s.writeReg r data else s)
  | .window X o => .next (s.hostWriteWindow X o data strb)
  | .reserved => .next s

/-- The command word of the running command: CTRL with its START bit (R25, R69). -/
def State.runningWord (s : State) : Word := ctrlWord s.ctrlCMD s.ctrlIE true

/-- The ENGINE's completion step; an idle engine takes none (R112, R124). -/
def engineComplete (s : State) : Host.Outcome State Fault Refusal :=
  if s.statusBUSY then runWord s.runningWord s else .next s

/-- The move of one event (R9). -/
def handleEvent (e : Event) (s : State) : Host.Outcome State Fault Refusal :=
  match e with
  | .read off => .next (s.hostRead off)
  | .write off data strb => hostWrite off data strb s
  | .engineInternal => .next s.internalStep
  | .engineComplete => engineComplete s
  | .reset => .next s.resetEvent

/-- The event at the head of the inputs is taken off. -/
def State.withInputs (rest : List Event) (s : State) : State := { s with inputs := rest }

/-- One step: the clock runs, then the next event happens. With no event left a running command completes, and an idle engine
stays as it is (R9, R112). -/
def advance (s : State) : Host.Outcome State Fault Refusal :=
  match s.inputs with
  | [] => engineComplete s.tick
  | e :: rest => handleEvent e (s.withInputs rest).tick

/-- The command word `w` as the host's last transfer left it: written to CTRL and, with START = 1, accepted (R110, R111). -/
def State.withCommandWord (w : Word) (s : State) : State :=
  if fieldSTART w then s.accept (fieldCMD w) (fieldIE w) else s.writeCtrlIdle w

end Sys2Proof.Machine
end

