-- ==== Sys2Proof/Machine/Step.lean ====
section
/-! DEFINITION. One step of the machine, and the placing of a command word for the very next step. -/

namespace Sys2Proof.Machine

/-- One step (Machine/Bus.lean). -/
def step (s : State) : Host.Outcome State Fault Refusal := advance s

/-- `s` with the command word of bits `w` accepted and the ENGINE's completion the next event, so that the very next step
runs that command to its completion (R110 to R112, R124). -/
def State.withFetchWord (s : State) (nbits w : Nat) : State :=
  (s.withCommandWord (BitVec.ofNat 32 (w % 2 ^ nbits))).withInputs (.engineComplete :: s.inputs)

end Sys2Proof.Machine
end

