-- ==== Sys2Proof/Machine/HostProgram.lean ====
section
/-! DEFINITION. The host-program statements and their expansion into port transfers (30_encoding.md R98, R99). A program is
the host's; the engine sees only the transfers. -/

namespace Sys2Proof.Machine

/-- A statement of a host program (R98, R99). -/
inductive Stmt where
  /-- `W off, v`. -/
  | w (off : Offset) (v : Word)
  /-- `WS off, v, s`. -/
  | ws (off : Offset) (v : Word) (s : Strobe)
  /-- `R off`, also with a check of the value, which has no hardware effect. -/
  | r (off : Offset)
  /-- `LOAD X, b0 b1 ...`. -/
  | load (X : Buf) (bytes : List Byte)
  /-- `OPND X, b0 b1 ...`, for X one of BASE, EXP or MOD. -/
  | opnd (X : Buf) (bytes : List Byte)
  /-- `RUN op` or `RUN op, IE`. -/
  | run (i : Instr)
  /-- `WAIT`, one turn of its poll loop: the loop itself is the host's control flow. -/
  | wait
  /-- `ACK`. -/
  | ack
deriving DecidableEq, Repr

/-- OPND names one of BASE, EXP or MOD (R99). -/
def Stmt.wf : Stmt → Bool
  | .opnd .out _ => false
  | _ => true

/-- The offset of CTRL (R98, R35). -/
def offCTRL : Offset := 0x010#15

/-- The offset of STATUS (R98, R35). -/
def offSTATUS : Offset := 0x014#15

/-- The offset of a window (R98, R35). -/
def Buf.offset (X : Buf) : Offset := BitVec.ofNat 15 X.window

/-- The offset of the length register of an operand (R35). -/
def Buf.lenOffset : Buf → Offset
  | .base => 0x020#15
  | .exp => 0x024#15
  | .mod => 0x028#15
  | .out => 0x02C#15

/-- A word of LOAD: byte 4j in lane 0, bytes past the list 0 (R99). -/
def packWord (bytes : List Byte) (j : Nat) : Word :=
  bytes.getD (4 * j + 3) 0#8 ++ bytes.getD (4 * j + 2) 0#8 ++ bytes.getD (4 * j + 1) 0#8 ++ bytes.getD (4 * j) 0#8

/-- LOAD: one full-strobe write for each word of the operand (R99). -/
def expandLoad (X : Buf) (bytes : List Byte) : List Event :=
  (List.range ((bytes.length + 3) / 4)).map fun j =>
    .write (X.offset + BitVec.ofNat 15 (4 * j)) (packWord bytes j) 0xF#4

/-- The transfers of a statement, in order (R98, R99). -/
def Stmt.expand : Stmt → List Event
  | .w off v => [.write off v 0xF#4]
  | .ws off v s => [.write off v s]
  | .r off => [.read off]
  | .load X bytes => expandLoad X bytes
  | .opnd X bytes => expandLoad X bytes ++ [.write X.lenOffset (BitVec.ofNat 32 bytes.length) 0xF#4]
  | .run i => [.write offCTRL (encode i) 0xF#4]
  | .wait => [.read offSTATUS]
  | .ack => [.write offSTATUS 0x00000006#32 0xF#4]

/-- A program's encoding: its list of transfers, in order (R98). -/
def encodeProgram (p : List Stmt) : List Event := p.flatMap Stmt.expand

end Sys2Proof.Machine
end

