-- ==== Sys2Proof/Safety.lean ====
section
/-! DEFINITION. What counts as a safe state and a normal run, in the terms the claims use. -/

namespace Sys2Proof.Machine

/-- A port offset that storage backs: byte i of a window with i < MAX_BYTES (R36, R67). -/
def Backed (maxBytes addr : Nat) : Prop := ∃ X : Buf, X.window ≤ addr ∧ addr < X.window + maxBytes

/-- The invariant of every reachable state. -/
structure State.Inv (s : State) : Prop where
  /-- MAX_BYTES is legal (R8). -/
  legal : Config.legalMaxBytes s.maxBytes = true
  /-- Memory is in its canonical form. -/
  memWf : Memory.wf s.mem
  /-- Only backed bytes are held (R67). -/
  memBacked : ∀ c ∈ s.mem, Backed s.maxBytes c.1
  /-- While BUSY = 1, DONE, CODE and CAUSE read 0 (R26, R69). -/
  running : s.statusBUSY = true → s.statusDONE = false ∧ s.statusCODE = 0x00#8 ∧ s.statusCAUSE = 0#4
  /-- CODE and CAUSE are those of one check, never of RESULT_GT_CAP (R96, R97, R123). -/
  status : ∃ c : Cause, c ≠ .resultGtCap ∧ s.statusCODE = c.code ∧ s.statusCAUSE = c.bits

/-- The command of a result-computing operation (R91). -/
def ArithOp.instr : ArithOp → Bool → Instr
  | .modexp, ie => .modexp ie
  | .modmul, ie => .modmul ie
  | .modred, ie => .modred ie
  | .montmul, ie => .montmul ie

/-- Every handle the command needs is present (R116). -/
def HandlesPresent (op : ArithOp) (s : State) : Prop := ∀ X : Buf, op.needs X = true → s.present X = true

/-- Every operand the command needs fits its window (R119). -/
def OperandsFit (op : ArithOp) (s : State) : Prop :=
  ∀ X : Buf, X ≠ .out → op.needs X = true → s.lenOf X ≤ s.maxBytes

/-- The command is running and passes every check of R113 that can fail, so it completes with a result. -/
structure NormalRun (op : ArithOp) (s : State) : Prop where
  busy : s.statusBUSY = true
  handles : HandlesPresent op s
  capacity : s.modLen.toNat ≤ s.outLen.toNat
  lengths : OperandsFit op s
  modulus : s.importValue .mod ≠ 0
  odd : op = .montmul → s.importValue .mod % 2 = 1

/-- The state after a successful completion with result `r`: BUF_OUT[0..n-1] <- B and OUT_LEN <- n for Export(r) = (n, B),
status success (R77, R124), the working registers discarded (R173; free values, log 27). -/
def written (r : Nat) (s : State) : State :=
  { s.discardDatapath with
    mem := Memory.setBytes s.mem 0x4000 (exportBytes r)
    outLen := BitVec.ofNat 32 (exportLength r)
    statusBUSY := false
    statusDONE := true
    statusCODE := 0x00#8
    statusCAUSE := 0#4 }

/-- The state after an error completion with the given CODE and CAUSE: nothing else changes (R124, R125) but the working
registers, which are discarded (R173; free values, log 27). -/
def failed (code : BitVec 8) (cause : BitVec 4) (s : State) : State :=
  { s.discardDatapath with
    statusBUSY := false
    statusDONE := true
    statusCODE := code
    statusCAUSE := cause }

/-- The accumulator of the exponent scan after the bits from index `n` up are done (R145, R147): in the Montgomery domain for an
odd modulus. -/
def loopValue (d : Datapath) (n : Nat) : Nat :=
  d.a ^ (d.e / 2 ^ n) * (if d.m % 2 = 1 then montRadix d.m else 1) % d.m

/-- What the working registers hold while a command `op` runs, once its operands are loaded (R145, R147, R173). -/
structure DatapathHolds (op : ArithOp) (s : State) : Prop where
  run : NormalRun op s
  a : s.datapath.a = s.importValue .base
  e : s.datapath.e = secondOperand op s
  m : s.datapath.m = s.importValue .mod
  bm : s.datapath.bm = s.datapath.a % s.datapath.m
  mu : s.datapath.mu = beta ^ (2 * limbCount s.datapath.m) / s.datapath.m
  n0 : op = .montmul ∨ (op = .modexp ∧ s.datapath.m % 2 = 1) → s.datapath.n0 = montConstant s.datapath.m
  domain : op = .modexp → s.datapath.m % 2 = 1 →
    s.datapath.rm = montRadix s.datapath.m % s.datapath.m ∧
    s.datapath.r2 = montRadix s.datapath.m ^ 2 % s.datapath.m ∧
    s.datapath.xt = s.datapath.a * montRadix s.datapath.m % s.datapath.m
  scan : s.datapath.stage = .scan →
    op = .modexp ∧ s.datapath.i < bitlen s.datapath.e ∧ s.datapath.acc = loopValue s.datapath (s.datapath.i + 1)
  exit : s.datapath.stage = .exit → op = .modexp → s.datapath.acc = loopValue s.datapath 0
  done : s.datapath.stage = .done → s.datapath.acc = compute op s.datapath.a s.datapath.e s.datapath.m

/-- The datapath's invariant: past the load stage, its registers hold what the reference controllers say. -/
def State.DatapathInv (s : State) : Prop :=
  s.statusBUSY = true → s.datapath.stage ≠ .load → ∃ op, arithOp s.ctrlCMD = some op ∧ DatapathHolds op s

/-- `n` internal steps of the ENGINE. -/
def internalSteps : Nat → State → State
  | 0, s => s
  | n + 1, s => internalSteps n s.internalStep

/-- The table of R221: which cause a result-computing command can raise. -/
def ArithOp.raises : ArithOp → Cause → Bool
  | _, .none => false
  | _, .illegalCmd => false
  | _, .resultGtCap => false
  | .modred, .nullExp => false
  | .modred, .expTooLong => false
  | op, .evenModulus => op == .montmul
  | _, _ => true

/-- The legal opcodes (R24, R91). -/
def legalOpcodes : List (BitVec 8) := [0x01#8, 0x02#8, 0x03#8, 0x04#8, 0x0F#8]

/-- The registers that lock while BUSY = 1 (R35). -/
def lockedRegs : List Reg := [.args, .baseLen, .expLen, .modLen, .outLen]

/-- The outcome is a next state. -/
def isNext (o : Host.Outcome State Fault Refusal) : Prop := ∃ t, o = .next t

end Sys2Proof.Machine
end

