-- ==== Sys2Proof/Certificates/Slice0/Obligations.lean ====
section
/-! DEFINITION. The statements for the provers, each with the rule of spec/ it formalises. -/

open Sys2Proof Sys2Proof.Machine

/-! ## Encoding -/

/-- R100: the worked decodes, and the STATUS value 0x000AFF02; R26: the word a STATUS read returns in every state. -/
def Obligations.SpecExampleWordsDecode : Prop :=
  decode 0x00000103#32 = .ok (.modexp true) ∧
  decode 0xFFFF0401#32 = .ok (.montmul false) ∧
  decode 0x00000100#32 = .error .notACommand ∧
  (∀ s : State, s.statusBUSY = false →
    writeCtrl 0x00000100#32 s = .next { s with ctrlCMD := 0x01#8, ctrlIE := false }) ∧
  (∀ s : State, s.statusWord = 0x000AFF02#32 →
    s.statusBUSY = false ∧ s.statusDONE = true ∧ s.statusLOCKERR = false ∧
    s.statusCODE = BitVec.ofInt 8 (-1) ∧ s.statusCAUSE = Cause.zeroModulus.bits) ∧
  (∀ (s : State) (off : Offset), target off = .reg .status →
    s.readWord off = s.statusWord ∧
    (s.readWord off).getLsbD 0 = s.statusBUSY ∧ (s.readWord off).getLsbD 1 = s.statusDONE ∧
    (s.readWord off).getLsbD 2 = s.statusLOCKERR ∧ (s.readWord off).extractLsb' 3 5 = 0#5 ∧
    (s.readWord off).extractLsb' 8 8 = s.statusCODE ∧ (s.readWord off).extractLsb' 16 4 = s.statusCAUSE ∧
    (s.readWord off).extractLsb' 20 12 = 0#12)

/-- R91: a word is a command word of `i` exactly when CMD, IE and START are those of `encode i`; every other bit is ignored.
So decode of encode is the identity. -/
def Obligations.CommandWordsDecodeExactly : Prop :=
  (∀ i : Instr, decode (encode i) = .ok i) ∧
  (∀ (w : Word) (i : Instr), decode w = .ok i ↔ w &&& 0x0000FF03#32 = encode i)

/-- R91, R92: a word with START = 1 decodes as one of the five legal commands, with its CMD and IE, or as illegal; a word with
START = 0 is no command. -/
def Obligations.EveryCmdValueIsLegalOrIllegal : Prop :=
  ∀ w : Word,
    (w.getLsbD 0 = true → w.extractLsb' 8 8 ∈ legalOpcodes →
      ∃ i : Instr, decode w = .ok i ∧ i.opcode = w.extractLsb' 8 8 ∧ i.ie = w.getLsbD 1) ∧
    (w.getLsbD 0 = true → w.extractLsb' 8 8 ∉ legalOpcodes →
      decode w = .error (.illegalCommand (w.extractLsb' 8 8) (w.getLsbD 1))) ∧
    (w.getLsbD 0 = false → decode w = .error .notACommand)

/-! ## The step -/

/-- R110, R111, R112, R124: a step is the next event's move after the clock has run, and it runs the decoded command. While
BUSY = 1 the ENGINE's completion runs the command in CTRL; while BUSY = 0 a full-strobe CTRL write runs the command word
written. With no event left the ENGINE completes (the model's choice of log 2). A command word placed by withFetchWord runs to
its completion at the very next step (the model's choice of log 12). -/
def Obligations.StepRunsTheDecodedCommand : Prop :=
  (∀ (s : State) (e : Event) (rest : List Event), s.inputs = e :: rest →
    step s = handleEvent e (s.withInputs rest).tick) ∧
  (∀ s : State, s.inputs = [] → step s = handleEvent .engineComplete s.tick) ∧
  (∀ (s : State) (i : Instr), s.statusBUSY = true → s.inputs = [] → decode s.runningWord = .ok i →
    step s = exec i s.tick) ∧
  (∀ (s : State) (i : Instr) (rest : List Event), s.statusBUSY = true → s.inputs = .engineComplete :: rest →
    decode s.runningWord = .ok i → step s = exec i (s.withInputs rest).tick) ∧
  (∀ (s : State) (i : Instr) (off : Offset) (w : Word) (rest : List Event), s.statusBUSY = false →
    s.inputs = .write off w 0xF#4 :: rest → target off = .reg .ctrl → decode w = .ok i →
    step s = exec i (s.withInputs rest)) ∧
  (∀ (s : State) (i : Instr), step (s.withFetchWord 32 (encode i).toNat) = exec i (s.accept i.opcode i.ie).tick)

/-- R64: no state and no event stops the machine, and PSLVERR is 0 always; R60, R61: PREADY is 1 always. -/
def Obligations.NoStepEverStops : Prop :=
  ∀ s : State, isNext (step s) ∧ s.portOut.pslverr = false ∧ s.portOut.pready = true

/-- R112, R275: whatever the events still to come, once they are over and the ENGINE has had one more step, no command is
left running: BUSY = 0. That the step with no event left is the ENGINE's completion is the model's choice of log 2 (weak
fairness). -/
def Obligations.NoCommandStaysRunning : Prop :=
  ∀ s : State, ∃ t : State, Host.Core.run Sys2Proof.core (s.inputs.length + 1) s = .next t ∧
    t.inputs = [] ∧ t.statusBUSY = false

/-- R112: an internal step changes the working registers and the clock's own state and nothing else, so nothing host-visible but
PERF_CYCLES. -/
def Obligations.InternalStepsAreInvisible : Prop :=
  ∀ (s : State) (rest : List Event), s.inputs = .engineInternal :: rest →
    ∃ t : State, step s = .next t ∧
      t = { s with
        inputs := rest, perfCycles := t.perfCycles, clockDraws := t.clockDraws, datapath := t.datapath } ∧
      t.portOut = s.portOut ∧ ∀ off, target off ≠ .reg .perfCycles → t.readWord off = s.readWord off

/-! ## Acceptance, phase and lock -/

/-- R110: the effect of a CTRL write while BUSY = 0, for every word and strobe, legal command or not; what the unobservable
working registers hold after an acceptance is not said here. -/
def Obligations.CtrlWriteWhileIdle : Prop :=
  ∀ (s : State) (off : Offset) (w : Word) (strb : Strobe), s.statusBUSY = false → target off = .reg .ctrl →
    ∃ (d : Datapath) (n : Nat), hostWrite off w strb s = .next
      (if strb = 0xF#4 then
        (if w.getLsbD 0 = true then
          { s with
            ctrlIE := w.getLsbD 1, ctrlCMD := w.extractLsb' 8 8
            statusBUSY := true, statusDONE := false, statusCODE := 0x00#8, statusCAUSE := 0#4
            perfCycles := 0#32, datapath := d, discards := n }
        else { s with ctrlIE := w.getLsbD 1, ctrlCMD := w.extractLsb' 8 8 })
      else s)

/-- R111: acceptance of each of the five commands, as exec's move while BUSY = 0. That the working registers hold free
values then is the model's choice of log 27. -/
def Obligations.CommandAcceptance : Prop :=
  ∀ (i : Instr) (s : State), s.statusBUSY = false →
    exec i s = .next
      { s with
        ctrlIE := i.ie, ctrlCMD := i.opcode
        statusBUSY := true, statusDONE := false, statusCODE := 0x00#8, statusCAUSE := 0#4
        perfCycles := 0#32, datapath := discardedDatapath s.discards, discards := s.discards + 1 }

/-- R39: the phase is BUSY, IDLE at reset; it becomes RUN only at an acceptance and IDLE only at a completion or a reset. -/
def Obligations.PhaseChangesOnlyAtItsEvents : Prop :=
  State.reset.phase = .idle ∧
  (∀ s : State, s.phase = .run ↔ s.statusBUSY = true) ∧
  (∀ (e : Event) (s t : State), handleEvent e s = .next t → s.phase = .idle → t.phase = .run →
    ∃ off w, e = .write off w 0xF#4 ∧ target off = .reg .ctrl ∧ w.getLsbD 0 = true ∧
      t = s.accept (w.extractLsb' 8 8) (w.getLsbD 1)) ∧
  (∀ (e : Event) (s t : State), handleEvent e s = .next t → s.phase = .run → t.phase = .idle →
    e = .engineComplete ∨ e = .reset)

/-- R27: the effect of a STATUS write, and that LOCKERR is set by the dropped writes and by nothing else. -/
def Obligations.LockErrorSetExactlyByDroppedWrites : Prop :=
  (∀ (s : State) (off : Offset) (w : Word), target off = .reg .status →
    hostWrite off w 0xF#4 s = .next
      { s with
        statusDONE := s.statusDONE && !w.getLsbD 1
        statusLOCKERR := s.statusLOCKERR && !w.getLsbD 2 }) ∧
  (∀ (e : Event) (s t : State), handleEvent e s = .next t → s.statusLOCKERR = false →
    (t.statusLOCKERR = true ↔
      s.statusBUSY = true ∧ ∃ off w strb, e = .write off w strb ∧
        ((strb = 0xF#4 ∧ target off = .reg .ctrl ∧ w.getLsbD 0 = true) ∨
         (strb = 0xF#4 ∧ ∃ r ∈ lockedRegs, target off = .reg r) ∨
         (∃ X o, target off = .window X o))))

/-- R68: the lock while BUSY = 1; R69: the STATUS word read then, in every state that meets the invariant. -/
def Obligations.LockWhileBusy : Prop :=
  ∀ s : State, s.statusBUSY = true →
    (∀ off X o, target off = .window X o →
      s.readWord off = 0#32 ∧ ∀ w strb, hostWrite off w strb s = .next { s with statusLOCKERR := true }) ∧
    (∀ off r, r ∈ lockedRegs → target off = .reg r →
      ∀ w, hostWrite off w 0xF#4 s = .next { s with statusLOCKERR := true }) ∧
    (∀ off, target off = .reg .ctrl → ∀ w, hostWrite off w 0xF#4 s = .next
      { s with ctrlIE := w.getLsbD 1, statusLOCKERR := s.statusLOCKERR || w.getLsbD 0 }) ∧
    (∀ off, target off = .reg .status → ∀ w, hostWrite off w 0xF#4 s = .next
      { s with
        statusDONE := s.statusDONE && !w.getLsbD 1
        statusLOCKERR := s.statusLOCKERR && !w.getLsbD 2 }) ∧
    (∀ off, target off = .reserved ∨ (∃ r ∈ [Reg.id, .version, .caps, .perfCycles], target off = .reg r) →
      ∀ w strb, hostWrite off w strb s = .next s) ∧
    (∀ off, (∀ X o, target off ≠ .window X o) → target off ≠ .reg .status →
      s.readWord off = { s with statusBUSY := false }.readWord off) ∧
    (∀ off, target off = .reg .status →
      (s.readWord off).getLsbD 0 = true ∧ (s.readWord off).getLsbD 2 = s.statusLOCKERR ∧
      (s.Inv → s.readWord off = if s.statusLOCKERR then 0x00000005#32 else 0x00000001#32))

/-- R81, R68, R273: while a command keeps running, no agent's move changes its opcode or the outcome of any command. -/
def Obligations.RunningCommandInputsAreLocked : Prop :=
  ∀ (e : Event) (s t : State), handleEvent e s = .next t → s.statusBUSY = true → t.statusBUSY = true →
    t.ctrlCMD = s.ctrlCMD ∧ t.mem = s.mem ∧ ∀ op : ArithOp, execute op t = execute op s

/-! ## Transfers -/

/-- R63: a transfer at `off` acts exactly as one at `off AND 0x7FFC`. -/
def Obligations.AlignmentIsIgnored : Prop :=
  ∀ (s : State) (off : Offset),
    s.hostRead off = s.hostRead (off &&& 0x7FFC#15) ∧
    (∀ w strb, hostWrite off w strb s = hostWrite (off &&& 0x7FFC#15) w strb s) ∧
    (∀ w strb, isNext (hostWrite off w strb s))

/-- R66: a register write with a partial strobe is ignored completely. -/
def Obligations.PartialStrobeRegisterWriteIgnored : Prop :=
  ∀ (s : State) (off : Offset) (w : Word) (strb : Strobe), off.toNat < 0x1000 → strb ≠ 0xF#4 →
    hostWrite off w strb s = .next s

/-- R62: the lanes of a window read and a window write while BUSY = 0. A write changes memory alone, and in it exactly the
backed bytes whose strobe is 1. -/
def Obligations.WindowTransferMovesBytes : Prop :=
  ∀ (s : State) (off : Offset) (X : Buf) (o : Nat), s.statusBUSY = false →
    Config.legalMaxBytes s.maxBytes = true → target off = .window X o →
    (o % 4 = 0 ∧ o < 4096 ∧ X.window + o = off.toNat / 4 * 4) ∧
    (∀ j, j < 4 → lane (s.readWord off) j = if o + j < s.maxBytes then s.readByte X (o + j) else 0#8) ∧
    (∀ w strb, ∃ t, hostWrite off w strb s = .next t ∧ t = { s with mem := t.mem } ∧
      ∀ Y i, t.readByte Y i =
        if Y = X ∧ o ≤ i ∧ i < o + 4 ∧ strb.getLsbD (i - o) = true ∧ i < s.maxBytes then lane w (i - o)
        else s.readByte Y i)

/-- R67: window offsets at or above MAX_BYTES read 0 and ignore writes, but for LOCKERR while BUSY = 1. -/
def Obligations.UnbackedWindowOffsets : Prop :=
  ∀ (s : State) (off : Offset) (X : Buf) (o : Nat), target off = .window X o → s.maxBytes ≤ o →
    s.readWord off = 0#32 ∧
    (s.statusBUSY = false → ∀ w strb, hostWrite off w strb s = .next s) ∧
    (s.statusBUSY = true → ∀ w strb, hostWrite off w strb s = .next { s with statusLOCKERR := true })

/-- R33: reserved offsets and reserved bits read 0 and ignore writes at all times. -/
def Obligations.ReservedSpaceReadsZeroIgnoresWrites : Prop :=
  (∀ (s : State) (off : Offset),
    off.toNat / 4 * 4 = 0x00C ∨ off.toNat / 4 * 4 = 0x01C ∨ (0x034 ≤ off.toNat ∧ off.toNat < 0x1000) ∨
      0x5000 ≤ off.toNat →
    s.readWord off = 0#32 ∧ ∀ w strb, hostWrite off w strb s = .next s) ∧
  (∀ s : State, s.ctrlRead &&& 0xFFFF00FD#32 = 0#32 ∧ s.statusWord &&& 0xFFF000F8#32 = 0#32 ∧
    s.readReg .args &&& 0xFFFFFFF0#32 = 0#32) ∧
  (∀ (s : State) (off : Offset) (w : Word),
    (target off = .reg .ctrl → hostWrite off w 0xF#4 s = hostWrite off (w &&& 0x0000FF03#32) 0xF#4 s) ∧
    (target off = .reg .status → hostWrite off w 0xF#4 s = hostWrite off (w &&& 0x00000006#32) 0xF#4 s) ∧
    (target off = .reg .args → hostWrite off w 0xF#4 s = hostWrite off (w &&& 0x0000000F#32) 0xF#4 s))

/-- R22, R23, R24: ID, VERSION and CAPS, at all times, whatever is written to them. -/
def Obligations.IdentificationRegisters : Prop :=
  (∀ s : State,
    s.readWord 0x000#15 = 0x4D455850#32 ∧ s.readWord 0x004#15 = 0x00010000#32 ∧
    (Config.legalMaxBytes s.maxBytes = true →
      s.readWord 0x008#15 = 0x801E0000#32 ||| BitVec.ofNat 32 s.maxBytes ∧
      ((s.readWord 0x008#15).extractLsb' 0 16).toNat = s.maxBytes) ∧
    (s.maxBytes = 512 → s.readWord 0x008#15 = 0x801E0200#32) ∧
    (∀ op, op < 16 → ((s.readWord 0x008#15).getLsbD (16 + op) = true ↔ BitVec.ofNat 8 op ∈ legalOpcodes))) ∧
  (∀ (s : State) (off : Offset), off ∈ [0x000#15, 0x004#15, 0x008#15] →
    ∀ w strb, hostWrite off w strb s = .next s) ∧
  (∀ (cmd : BitVec 8) (ie : Bool), 0x10 ≤ cmd.toNat → decodeCMD cmd ie = .error (.illegalCommand cmd ie)) ∧
  State.reset.readWord 0x008#15 = 0x801E0000#32 ||| BitVec.ofNat 32 State.reset.maxBytes

/-- R25, R28 to R32: what is written to CTRL (without START), ARGS and the length registers while BUSY = 0 reads back, less
the reserved bits; nothing else changes. -/
def Obligations.RegistersReadBack : Prop :=
  ∀ (s : State) (w : Word), s.statusBUSY = false →
    (w.getLsbD 0 = false → ∃ t, hostWrite 0x010#15 w 0xF#4 s = .next t ∧
      t = { s with ctrlIE := t.ctrlIE, ctrlCMD := t.ctrlCMD } ∧ t.readWord 0x010#15 = w &&& 0x0000FF02#32) ∧
    (∃ t, hostWrite 0x018#15 w 0xF#4 s = .next t ∧ t = { s with args := t.args } ∧
      t.readWord 0x018#15 = w &&& 0x0000000F#32) ∧
    (∃ t, hostWrite 0x020#15 w 0xF#4 s = .next t ∧ t = { s with baseLen := w } ∧ t.readWord 0x020#15 = w) ∧
    (∃ t, hostWrite 0x024#15 w 0xF#4 s = .next t ∧ t = { s with expLen := w } ∧ t.readWord 0x024#15 = w) ∧
    (∃ t, hostWrite 0x028#15 w 0xF#4 s = .next t ∧ t = { s with modLen := w } ∧ t.readWord 0x028#15 = w) ∧
    (∃ t, hostWrite 0x02C#15 w 0xF#4 s = .next t ∧ t = { s with outLen := w } ∧ t.readWord 0x02C#15 = w)

/-- R70: a read changes nothing but PRDATA (and the clock runs as in any step); two reads of one offset, other than
PERF_CYCLES, with only reads and internal steps between them return the same value. -/
def Obligations.ReadsHaveNoSideEffect : Prop :=
  (∀ (s : State) (off : Offset) (rest : List Event), s.inputs = .read off :: rest →
    ∃ t, step s = .next t ∧ t = { (s.withInputs rest).tick with prdata := t.prdata } ∧
      (target off ≠ .reg .perfCycles → t.prdata = s.readWord off)) ∧
  (∀ (s t u : State) (off : Offset) (between rest : List Event),
    (∀ e ∈ between, e = .engineInternal ∨ ∃ o, e = .read o) →
    s.inputs = .read off :: (between ++ .read off :: rest) → target off ≠ .reg .perfCycles →
    Host.Core.run Sys2Proof.core 1 s = .next t →
    Host.Core.run Sys2Proof.core (between.length + 2) s = .next u → u.prdata = t.prdata)

/-- R34: PERF_CYCLES is cleared by acceptance, never falls while the command runs, holds while BUSY = 0, ignores writes, and is
what a read of its offset returns. -/
def Obligations.PerfCyclesCountsWhileBusy : Prop :=
  (∀ s t : State, step s = .next t → (∀ rest, s.inputs ≠ .reset :: rest) →
    (s.statusBUSY = true → s.perfCycles.toNat ≤ t.perfCycles.toNat) ∧
    (s.statusBUSY = false → t.statusBUSY = false → t.perfCycles = s.perfCycles) ∧
    (s.statusBUSY = false → t.statusBUSY = true → t.perfCycles = 0#32)) ∧
  (∀ (s : State) (w : Word) (strb : Strobe), hostWrite 0x030#15 w strb s = .next s) ∧
  (∀ (s : State) (off : Offset), off.toNat / 4 * 4 = 0x030 → s.readWord off = s.perfCycles) ∧
  (∀ (w : Word) (k : Nat), (saturatingCount w k).toNat = min (w.toNat + k) 0xFFFFFFFF)

/-! ## Import and Export -/

/-- R75: Import is the big-endian sum; length 0 is 0; leading zero bytes do not change it; bytes at index L or above never
affect it. -/
def Obligations.ImportIsBigEndian : Prop :=
  (∀ (s : State) (X : Buf), s.importValue X =
    ∑ i ∈ Finset.range (s.lenOf X), (s.readByte X i).toNat * 256 ^ (s.lenOf X - 1 - i)) ∧
  (∀ (s : State) (X : Buf), s.lenOf X = 0 → s.importValue X = 0) ∧
  (∀ (s t : State) (X : Buf) (z : Nat), s.lenOf X = z + t.lenOf X → (∀ i, i < z → s.readByte X i = 0#8) →
    (∀ i, i < t.lenOf X → s.readByte X (z + i) = t.readByte X i) → s.importValue X = t.importValue X)

/-- R76: the length and the bytes of Export; a zero result is one zero byte, any other has no leading zero byte. -/
def Obligations.ExportIsCanonical : Prop :=
  ∀ r : Nat,
    (exportBytes r).length = exportLength r ∧
    exportLength r = max 1 ((bitlen r + 7) / 8) ∧
    (∀ i, i < exportLength r →
      (exportBytes r).getD i 0#8 = BitVec.ofNat 8 (r / 256 ^ (exportLength r - 1 - i) % 256)) ∧
    (r = 0 → exportBytes r = [0x00#8]) ∧
    (r ≠ 0 → (exportBytes r).getD 0 0#8 ≠ 0#8 ∧ 256 ^ (exportLength r - 1) ≤ r ∧ r < 256 ^ exportLength r)

/-- R75, R76: a result exported into a window after any number of leading zero bytes imports as itself. -/
def Obligations.ImportInvertsExport : Prop :=
  ∀ (s : State) (X : Buf) (r z : Nat), Config.legalMaxBytes s.maxBytes = true →
    z + exportLength r ≤ s.maxBytes → s.lenOf X = z + exportLength r →
    (s.writeBytes X 0 (List.replicate z 0#8 ++ exportBytes r)).importValue X = r

/-! ## The commands' results -/

/-- R140: MODEXP writes Export(pow(b, e) mod m). -/
def Obligations.ModexpResult : Prop :=
  ∀ (ie : Bool) (s : State), NormalRun .modexp s →
    exec (.modexp ie) s =
      .next (written (s.importValue .base ^ s.importValue .exp % s.importValue .mod) s)

/-- R141, R142, R143: exponent 0, modulus 1, base 0 and a base not below the modulus. -/
def Obligations.ModexpCornerCases : Prop :=
  ∀ (ie : Bool) (s : State), NormalRun .modexp s →
    (s.importValue .exp = 0 → exec (.modexp ie) s = .next (written (if s.importValue .mod = 1 then 0 else 1) s)) ∧
    (s.importValue .mod = 1 → exec (.modexp ie) s = .next (written 0 s)) ∧
    (s.importValue .base = 0 → s.importValue .exp ≠ 0 → exec (.modexp ie) s = .next (written 0 s)) ∧
    exec (.modexp ie) s =
      .next (written ((s.importValue .base % s.importValue .mod) ^ s.importValue .exp % s.importValue .mod) s)

/-- R190: MODMUL writes Export((A * B) mod m). -/
def Obligations.ModmulResult : Prop :=
  ∀ (ie : Bool) (s : State), NormalRun .modmul s →
    exec (.modmul ie) s =
      .next (written (s.importValue .base * s.importValue .exp % s.importValue .mod) s)

/-- R193: MODRED writes Export(A mod m), whatever EXP, EXP_LEN and EXP_V are. -/
def Obligations.ModredResult : Prop :=
  ∀ (ie : Bool) (s : State), s.statusBUSY = true → s.present .base = true → s.present .mod = true →
    s.present .out = true → s.modLen.toNat ≤ s.outLen.toNat → s.baseLen.toNat ≤ s.maxBytes →
    s.modLen.toNat ≤ s.maxBytes → s.importValue .mod ≠ 0 →
    exec (.modred ie) s = .next (written (s.importValue .base % s.importValue .mod) s)

/-- R196, R197: MONTMUL writes Export(r) with r < m and r * R congruent to A * B modulo m, R = 2^(64 k). -/
def Obligations.MontmulResult : Prop :=
  ∀ (ie : Bool) (s : State), NormalRun .montmul s →
    ∃ r k : Nat, k = max 1 ((bitlen (s.importValue .mod) + 63) / 64) ∧ r < s.importValue .mod ∧
      r * 2 ^ (64 * k) % s.importValue .mod = s.importValue .base * s.importValue .exp % s.importValue .mod ∧
      r = s.importValue .base * s.importValue .exp * modInv (2 ^ (64 * k)) (s.importValue .mod)
        % s.importValue .mod ∧
      exec (.montmul ie) s = .next (written r s)

/-- R10: ModInv(a, m) is the x < m with (a * x) mod m = 1 mod m. -/
def Obligations.ModInvIsTheInverse : Prop :=
  ∀ a m : Nat, 1 ≤ m → Nat.gcd a m = 1 →
    modInv a m < m ∧ a * modInv a m % m = 1 % m ∧ ∀ x, x < m → a * x % m = 1 % m → x = modInv a m

/-- R204, R205: ZEROIZE clears every byte of the four buffers, always succeeds, and changes nothing else but STATUS and the
working registers. -/
def Obligations.ZeroizeClearsTheBuffers : Prop :=
  ∀ (ie : Bool) (s : State), s.statusBUSY = true →
    ∃ t, exec (.zeroize ie) s = .next t ∧ (∀ X i, t.readByte X i = 0x00#8) ∧
      t = { s.discardDatapath with
        mem := t.mem
        statusBUSY := false, statusDONE := true, statusCODE := 0x00#8, statusCAUSE := 0#4 }

/-- R207: any other CMD value is accepted like a command, then completes with ILLEGAL_CMD, CODE -1; nothing else changes but the
working registers, which are discarded (R173). -/
def Obligations.IllegalCommandFails : Prop :=
  (∀ (w : Word) (s : State), w.getLsbD 0 = true → w.extractLsb' 8 8 ∉ legalOpcodes →
    (s.statusBUSY = false → ∃ t, writeCtrl w s = .next t ∧ t.statusBUSY = true ∧ t.ctrlCMD = w.extractLsb' 8 8) ∧
    (s.statusBUSY = true → s.ctrlCMD = w.extractLsb' 8 8 → engineComplete s = .next (failed 0xFF#8 1#4 s))) ∧
  State.reset.ctrlCMD ∉ legalOpcodes

/-! ## The checks and the errors -/

/-- R116: the null-handle checks, in the order BASE, EXP, MOD, OUT, before every other check. -/
def Obligations.AbsentHandleFails : Prop :=
  ∀ (op : ArithOp) (ie : Bool) (s : State), s.statusBUSY = true →
    (s.present .base = false → exec (op.instr ie) s = .next (failed 0xFF#8 2#4 s)) ∧
    (s.present .base = true → op.needs .exp = true → s.present .exp = false →
      exec (op.instr ie) s = .next (failed 0xFF#8 3#4 s)) ∧
    (s.present .base = true → (op.needs .exp = true → s.present .exp = true) → s.present .mod = false →
      exec (op.instr ie) s = .next (failed 0xFF#8 4#4 s)) ∧
    (s.present .base = true → (op.needs .exp = true → s.present .exp = true) → s.present .mod = true →
      s.present .out = false → exec (op.instr ie) s = .next (failed 0xFF#8 5#4 s)) ∧
    (HandlesPresent op s → ∀ t, exec (op.instr ie) s = .next t → t.statusCAUSE ∉ [2#4, 3#4, 4#4, 5#4])

/-- R117: a capacity below the modulus's byte length gives -2, whatever the operands' values are; an absent handle gives -1
before that; a sufficient capacity never gives this cause. -/
def Obligations.CapacityBelowModulusLengthFails : Prop :=
  ∀ (op : ArithOp) (ie : Bool) (s : State), s.statusBUSY = true →
    (HandlesPresent op s → s.outLen.toNat < s.modLen.toNat → exec (op.instr ie) s = .next (failed 0xFE#8 6#4 s)) ∧
    (¬ HandlesPresent op s → ∃ t, exec (op.instr ie) s = .next t ∧ t.statusCODE = 0xFF#8) ∧
    (s.modLen.toNat ≤ s.outLen.toNat → ∀ t, exec (op.instr ie) s = .next t → t.statusCAUSE ≠ 6#4)

/-- R119: a needed operand longer than MAX_BYTES gives -3, in the order BASE, EXP, MOD; operands that fit never do. -/
def Obligations.OverlongOperandFails : Prop :=
  ∀ (op : ArithOp) (ie : Bool) (s : State), s.statusBUSY = true → HandlesPresent op s →
    s.modLen.toNat ≤ s.outLen.toNat →
    (s.maxBytes < s.baseLen.toNat → exec (op.instr ie) s = .next (failed 0xFD#8 7#4 s)) ∧
    (s.baseLen.toNat ≤ s.maxBytes → op.needs .exp = true → s.maxBytes < s.expLen.toNat →
      exec (op.instr ie) s = .next (failed 0xFD#8 8#4 s)) ∧
    (s.baseLen.toNat ≤ s.maxBytes → (op.needs .exp = true → s.expLen.toNat ≤ s.maxBytes) →
      s.maxBytes < s.modLen.toNat → exec (op.instr ie) s = .next (failed 0xFD#8 9#4 s)) ∧
    (OperandsFit op s → ∀ t, exec (op.instr ie) s = .next t → t.statusCODE ≠ 0xFD#8)

/-- R120: a zero modulus gives -1 after the handle, capacity and length checks, whatever the other operands are, and -2 with a
capacity below MOD_LEN; the modulus is zero for MOD_LEN = 0 and for all-zero bytes. -/
def Obligations.ZeroModulusFails : Prop :=
  (∀ (op : ArithOp) (ie : Bool) (s : State), s.statusBUSY = true → HandlesPresent op s →
    s.modLen.toNat ≤ s.outLen.toNat → OperandsFit op s → s.importValue .mod = 0 →
    exec (op.instr ie) s = .next (failed 0xFF#8 10#4 s)) ∧
  (∀ (op : ArithOp) (ie : Bool) (s : State), s.statusBUSY = true → HandlesPresent op s →
    s.outLen.toNat < s.modLen.toNat → s.importValue .mod = 0 →
    exec (op.instr ie) s = .next (failed 0xFE#8 6#4 s)) ∧
  (∀ s : State, s.importValue .mod = 0 ↔ ∀ i, i < s.modLen.toNat → s.readByte .mod i = 0x00#8)

/-- R196, R198: MONTMUL with a nonzero even modulus gives -1, EVEN_MODULUS, after every other check; no other command does. -/
def Obligations.MontmulRefusesEvenModulus : Prop :=
  (∀ (ie : Bool) (s : State), s.statusBUSY = true → HandlesPresent .montmul s →
    s.modLen.toNat ≤ s.outLen.toNat → OperandsFit .montmul s → s.importValue .mod ≠ 0 →
    s.importValue .mod % 2 = 0 → exec (.montmul ie) s = .next (failed 0xFF#8 11#4 s)) ∧
  (∀ (op : ArithOp) (s : State), op ≠ .montmul → execute op s ≠ .error .evenModulus)

/-- R222, R125: an error completion of any command, illegal or not, records CODE and CAUSE and changes nothing else but the
working registers, which it discards (R173). -/
def Obligations.ErrorCompletionIsPrecise : Prop :=
  (∀ (i : Instr) (s t : State), s.statusBUSY = true → exec i s = .next t → t.statusCODE ≠ 0x00#8 →
    t = failed t.statusCODE t.statusCAUSE s) ∧
  (∀ s t : State, s.statusBUSY = true → engineComplete s = .next t → t.statusCODE ≠ 0x00#8 →
    t = failed t.statusCODE t.statusCAUSE s)

/-- R123: the second capacity check never fails: a result's length is at most MOD_LEN, so at most OUT_LEN and MAX_BYTES. -/
def Obligations.ResultAlwaysFits : Prop :=
  ∀ (op : ArithOp) (s : State),
    execute op s ≠ .error .resultGtCap ∧
    ∀ bytes, execute op s = .write bytes →
      1 ≤ bytes.length ∧ bytes.length ≤ s.modLen.toNat ∧ s.modLen.toNat ≤ s.outLen.toNat ∧
      s.modLen.toNat ≤ s.maxBytes

/-- R221: the table of which command raises which cause, in both directions. -/
def Obligations.CauseTable : Prop :=
  (∀ (op : ArithOp) (c : Cause), op.raises c = true ↔
    ∃ s : State, s.Inv ∧ s.statusBUSY = true ∧ execute op s = .error c) ∧
  (∀ (ie : Bool) (s t : State), s.statusBUSY = true → exec (.zeroize ie) s = .next t → t.statusCAUSE = 0#4) ∧
  (∀ (cmd : BitVec 8) (ie : Bool) (s t : State), s.statusBUSY = true → execIllegal cmd ie s = .next t →
    t.statusCAUSE = Cause.illegalCmd.bits) ∧
  (∀ c : Cause, c.code = BitVec.ofInt 8 c.status ∧ c.status ∈ [0, -1, -2, -3])

/-- R19: the outcome of a running command depends on its inputs alone: two states that agree on the opcode, ARGS, the lengths,
MAX_BYTES and the bytes below the lengths complete with one and the same outcome. -/
def Obligations.OutcomeDependsOnInputsAlone : Prop :=
  ∀ s t : State, s.statusBUSY = true → t.statusBUSY = true → s.maxBytes = t.maxBytes →
    s.args = t.args → s.baseLen = t.baseLen → s.expLen = t.expLen → s.modLen = t.modLen → s.outLen = t.outLen →
    (∀ X k, X ≠ .out → k < s.lenOf X → s.readByte X k = t.readByte X k) →
    (∀ i : Instr, ∃ o : CmdOutcome, exec i s = .next (complete o s) ∧ exec i t = .next (complete o t)) ∧
    (s.ctrlCMD = t.ctrlCMD → ∃ o : CmdOutcome,
      engineComplete s = .next (complete o s) ∧ engineComplete t = .next (complete o t))

/-- R36, R77, R124, R151: what MODEXP, MODMUL, MODRED and MONTMUL leave unchanged at completion: every register but OUT_LEN,
STATUS and the working registers, LOCKERR, and every buffer byte but BUF_OUT[0..n-1], n the length of Export(r), on success. -/
def Obligations.ArithmeticCommandFrame : Prop :=
  ∀ (op : ArithOp) (ie : Bool) (s t : State), s.statusBUSY = true → Config.legalMaxBytes s.maxBytes = true →
    exec (op.instr ie) s = .next t →
    t = { s.discardDatapath with
      mem := t.mem, outLen := t.outLen, statusBUSY := t.statusBUSY, statusDONE := t.statusDONE
      statusCODE := t.statusCODE, statusCAUSE := t.statusCAUSE } ∧
    (∀ (Y : Buf) (i : Nat),
      (t.statusCODE = 0x00#8 → ¬ (Y = .out ∧ i < exportLength
        (compute op (s.importValue .base) (secondOperand op s) (s.importValue .mod)))) →
      t.readByte Y i = s.readByte Y i) ∧
    (t.statusCODE ≠ 0x00#8 → t.outLen = s.outLen)

/-- R77: the output write of a successful completion, byte by byte. -/
def Obligations.OutputBytesAreExported : Prop :=
  ∀ (op : ArithOp) (ie : Bool) (s : State), NormalRun op s → Config.legalMaxBytes s.maxBytes = true →
    ∃ (r : Nat) (t : State),
      r = compute op (s.importValue .base) (secondOperand op s) (s.importValue .mod) ∧
      exec (op.instr ie) s = .next t ∧ t.outLen.toNat = exportLength r ∧
      exportLength r ≤ s.modLen.toNat ∧ s.modLen.toNat ≤ s.outLen.toNat ∧ exportLength r ≤ s.maxBytes ∧
      (∀ i, i < exportLength r → t.readByte .out i = (exportBytes r).getD i 0#8) ∧
      (∀ i, exportLength r ≤ i → t.readByte .out i = s.readByte .out i)

/-- R124, R228, R226: every completion ends the command: BUSY 0, DONE 1, irq as IE says; CTRL and LOCKERR are unchanged. -/
def Obligations.EveryCompletionEndsTheCommand : Prop :=
  ∀ (i : Instr) (s : State), s.statusBUSY = true →
    ∃ t, exec i s = .next t ∧ t.statusBUSY = false ∧ t.statusDONE = true ∧ t.irq = s.ctrlIE ∧
      t.ctrlIE = s.ctrlIE ∧ t.ctrlCMD = s.ctrlCMD ∧ t.statusLOCKERR = s.statusLOCKERR ∧ t.args = s.args ∧
      t.baseLen = s.baseLen ∧ t.expLen = s.expLen ∧ t.modLen = s.modLen

/-! ## Reset and interrupt -/

/-- R41: the registers read their reset values, the phase is IDLE and irq is 0. -/
def Obligations.ResetState : Prop :=
  State.reset.readWord 0x000#15 = 0x4D455850#32 ∧ State.reset.readWord 0x004#15 = 0x00010000#32 ∧
  State.reset.readWord 0x008#15 = 0x801E0200#32 ∧ State.reset.readWord 0x010#15 = 0x00000000#32 ∧
  State.reset.readWord 0x014#15 = 0x00000000#32 ∧ State.reset.readWord 0x018#15 = 0x00000000#32 ∧
  State.reset.readWord 0x020#15 = 0x00000000#32 ∧ State.reset.readWord 0x024#15 = 0x00000000#32 ∧
  State.reset.readWord 0x028#15 = 0x00000000#32 ∧ State.reset.readWord 0x02C#15 = 0x00000000#32 ∧
  State.reset.readWord 0x030#15 = 0x00000000#32 ∧ State.reset.phase = .idle ∧ State.reset.irq = false

/-- R262, R260: RESET gives every register its reset value in any state, a running command included. -/
def Obligations.ResetEventRestoresTheRegisters : Prop :=
  ∀ s : State,
    ∃ t, handleEvent .reset s = .next t ∧ t.phase = .idle ∧ t.irq = false ∧ t.ctrlRead = 0#32 ∧ t.statusWord = 0#32 ∧
      t.args = 0#4 ∧ t.baseLen = 0#32 ∧ t.expLen = 0#32 ∧ t.modLen = 0#32 ∧ t.outLen = 0#32 ∧
      t.perfCycles = 0#32 ∧ t.readWord 0x000#15 = 0x4D455850#32 ∧ t.readWord 0x004#15 = 0x00010000#32 ∧
      t.readWord 0x008#15 = s.readWord 0x008#15

/-- R38: irq is IE AND DONE at all times, 0 at reset; what raises it and what lowers it. -/
def Obligations.IrqIsALevel : Prop :=
  (∀ s : State, s.portOut.irq = (s.ctrlIE && s.statusDONE)) ∧ State.reset.irq = false ∧
  (∀ (i : Instr) (s t : State), s.statusBUSY = true → exec i s = .next t → t.irq = s.ctrlIE) ∧
  (∀ (i : Instr) (s t : State), s.statusBUSY = false → exec i s = .next t → t.irq = false) ∧
  (∀ (s t : State) (off : Offset) (w : Word), target off = .reg .ctrl → s.statusBUSY = false →
    w.getLsbD 0 = false → hostWrite off w 0xF#4 s = .next t → t.irq = (w.getLsbD 1 && s.statusDONE)) ∧
  (∀ (s t : State) (off : Offset) (w : Word), target off = .reg .status → w.getLsbD 1 = true →
    hostWrite off w 0xF#4 s = .next t → t.irq = false)

/-! ## Invariant -/

/-- The invariant holds at reset. -/
def Obligations.InvariantAtReset : Prop := State.reset.Inv

/-- Every step keeps the invariant: legal MAX_BYTES, canonical memory of backed bytes, CODE and CAUSE of one check and 0 while
BUSY = 1 with DONE = 0 (R8, R26, R67, R69, R96, R97, R123). -/
def Obligations.EveryStepKeepsTheInvariant : Prop :=
  ∀ s t : State, s.Inv → step s = .next t → t.Inv

/-! ## The datapath -/

/-- R163: n0' of an odd modulus, computed by the six Newton steps, and its value for 13. -/
def Obligations.MontgomeryConstant : Prop :=
  (∀ m : Nat, m % 2 = 1 →
    m % 2 ^ 64 % 2 = 1 ∧ m % 2 ^ 64 * montConstant m % 2 ^ 64 = 2 ^ 64 - 1 ∧
    montConstant m = (2 ^ 64 - modInv (m % 2 ^ 64) (2 ^ 64)) % 2 ^ 64 ∧
    newtonInverse (m % 2 ^ 64) 6 1 = modInv (m % 2 ^ 64) (2 ^ 64)) ∧
  montConstant 13 = 0xB13B13B13B13B13B

/-- R166, R167: the law of MontMul; into the Montgomery domain, out of it, the product of two forms, and the form of 1. -/
def Obligations.MontMulLaws : Prop :=
  ∀ x y m : Nat, m % 2 = 1 → x < m → y < m →
    montMul x y m = x * y * modInv (2 ^ (64 * limbCount m)) m % m ∧
    montMul x (montRadix m * montRadix m % m) m = x * montRadix m % m ∧
    montMul (x * montRadix m % m) (1 % m) m = x ∧
    montMul (x * montRadix m % m) (y * montRadix m % m) m = x * y * montRadix m % m ∧
    montMul (1 % m) (montRadix m * montRadix m % m) m = montRadix m % m

/-- R170, R171: the quotient estimate is at most 2 too small, and BarrettReduce is the remainder. -/
def Obligations.BarrettReduceLaw : Prop :=
  ∀ x m : Nat, 1 ≤ m → x < beta ^ (2 * limbCount m) →
    barrettQuotient x m ≤ x / m ∧ x / m ≤ barrettQuotient x m + 2 ∧
    x - barrettQuotient x m * m < 3 * m ∧ barrettReduce x m = x % m

/-- R172: ReduceLong is the remainder, for an operand of any length. -/
def Obligations.ReduceLongLaw : Prop :=
  ∀ x m : Nat, 1 ≤ m → reduceLong x m = x % m

/-- R148, R149, R175, R176, R177: under every schedule the datapath computes what the commands compute. The schedules are those
of the type ExpSchedule, the model's choice of log 25. -/
def Obligations.DatapathComputesTheCommands : Prop :=
  ∀ (sched : ExpSchedule) (op : ArithOp) (a e m : Nat), 1 ≤ m → (op = .montmul → m % 2 = 1) →
    computeDatapath sched op a e m = compute op a e m

/-- R40, R145 to R147, R173 to R177, R275: the working registers hold what the reference controllers say, under every move of
every agent; once the work is done the accumulator is the result that completion writes; and it is done after as many internal
steps as the exponent has bits, and two. The stages are the model's own (log 14). -/
def Obligations.DatapathFollowsTheCommand : Prop :=
  State.reset.DatapathInv ∧
  (∀ (e : Event) (s t : State), s.DatapathInv → handleEvent e s = .next t → t.DatapathInv) ∧
  (∀ s : State, s.DatapathInv → s.statusBUSY = true → s.datapath.stage = .done →
    engineComplete s = .next (written s.datapath.acc s)) ∧
  (∀ (op : ArithOp) (s : State), NormalRun op s → arithOp s.ctrlCMD = some op → s.datapath.stage = .load →
    (internalSteps (bitlen (secondOperand op s) + 2) s).datapath.stage = .done)

/-- R160, R18, R173: the working registers are unobservable and do not survive. Two states that differ in them alone look the same
at the port; every move of every agent leaves them differing in them alone, and a move that changes the phase (an acceptance, a
completion, a reset) leaves one and the same state. That free values stand in them after it is the model's choice of log 27. -/
def Obligations.DatapathIsUnobservable : Prop :=
  ∀ s t : State, t = { s with datapath := t.datapath } →
    t.portOut = s.portOut ∧ (∀ off, t.readWord off = s.readWord off) ∧
    ∀ (e : Event) (s' t' : State), handleEvent e s = .next s' → handleEvent e t = .next t' →
      t' = { s' with datapath := t'.datapath } ∧
      (s.statusBUSY ≠ s'.statusBUSY → t' = s')

/-! ## Host programs and worked examples -/

/-- R99: the transfers of OPND, run on an idle engine, leave the operand's bytes in its window and its length in its
register. -/
def Obligations.LoadedOperandStandsInItsWindow : Prop :=
  ∀ (s : State) (X : Buf) (bytes : List Byte), X ≠ .out → s.statusBUSY = false →
    Config.legalMaxBytes s.maxBytes = true → bytes.length ≤ s.maxBytes → s.inputs = (Stmt.opnd X bytes).expand →
    ∃ t : State, Host.Core.run Sys2Proof.core s.inputs.length s = .next t ∧ t.inputs = [] ∧
      t.lenOf X = bytes.length ∧ (∀ i, i < bytes.length → t.readByte X i = bytes.getD i 0#8) ∧
      (∀ Y i, Y ≠ X → t.readByte Y i = s.readByte Y i)

/-- R129: the source's scenario 5^3 mod 13 = 8, on every running engine whose inputs are those. -/
def Obligations.SourceScenarioFiveCubedModThirteen : Prop :=
  ∀ s : State, s.statusBUSY = true → s.statusLOCKERR = false → Config.legalMaxBytes s.maxBytes = true →
    s.args = 0xF#4 → s.baseLen = 1#32 → s.expLen = 1#32 → s.modLen = 1#32 → s.outLen = 1#32 →
    s.readByte .base 0 = 5#8 → s.readByte .exp 0 = 3#8 → s.readByte .mod 0 = 13#8 → s.ctrlCMD = 0x01#8 →
    ∃ t, engineComplete s = .next t ∧ t.readByte .out 0 = 0x08#8 ∧ t.outLen = 1#32 ∧ t.statusWord = 0x00000002#32

/-- R266: a START straight after reset completes with NULL_BASE; OUT_LEN stays 0 and no buffer byte changes. -/
def Obligations.StartAfterResetFailsWithNullBase : Prop :=
  ∃ t : State, Host.Core.run Sys2Proof.core 2
      { State.reset with inputs := [.write 0x010#15 0x00000101#32 0xF#4, .engineComplete] } = .next t ∧
    t.statusWord = 0x0002FF02#32 ∧ t.statusCODE = BitVec.ofInt 8 (-1) ∧ t.statusCAUSE = Cause.nullBase.bits ∧
    t.outLen = 0#32 ∧ ∀ X i, t.readByte X i = State.reset.readByte X i
end

