-- ==== Sys2Proof/Laws/State.lean ====
section
/-! SUPPORT. One lemma per field per update of State, so that no later proof unfolds a record update. -/

namespace Sys2Proof.Machine

/-- One lane of a window write touches memory alone. -/
theorem writeLane_eq (X : Buf) (o : Nat) (w : Word) (st : Strobe) (s : State) (j : Nat) :
    State.writeLane X o w st s j = { s with mem := (State.writeLane X o w st s j).mem } := by
  unfold State.writeLane
  split <;> rfl

/-- A window write touches memory alone. -/
theorem writeWindow_eq (X : Buf) (o : Nat) (w : Word) (st : Strobe) (s : State) :
    s.writeWindow X o w st = { s with mem := (s.writeWindow X o w st).mem } := by
  simp only [State.writeWindow, List.foldl_cons, List.foldl_nil]
  rw [writeLane_eq, writeLane_eq X o w st _ 2, writeLane_eq X o w st _ 1, writeLane_eq X o w st s 0]

/-- The clock touches PERF_CYCLES and its draw counter alone. -/
theorem tick_eq (s : State) :
    s.tick = { s with perfCycles := s.tick.perfCycles, clockDraws := s.tick.clockDraws } := by
  unfold State.tick
  split <;> rfl

/-- An internal step touches the working registers alone. -/
theorem internalStep_eq (s : State) : s.internalStep = { s with datapath := s.internalStep.datapath } := by
  unfold State.internalStep
  split
  · split <;> rfl
  · rfl

/-- An idle engine's clock does not run (R34). -/
theorem tick_idle (s : State) (h : s.statusBUSY = false) : s.tick = s := by
  simp [State.tick, h]

/-- An error completion is the end of a completion and nothing else. -/
@[simp] theorem raiseError_eq (c : Cause) (s : State) : raiseError c s = s.finish c := rfl

@[simp] theorem discardDatapath_maxBytes (s : State) : (s.discardDatapath).maxBytes = s.maxBytes := rfl
@[simp] theorem discardDatapath_ctrlIE (s : State) : (s.discardDatapath).ctrlIE = s.ctrlIE := rfl
@[simp] theorem discardDatapath_ctrlCMD (s : State) : (s.discardDatapath).ctrlCMD = s.ctrlCMD := rfl
@[simp] theorem discardDatapath_statusBUSY (s : State) : (s.discardDatapath).statusBUSY = s.statusBUSY := rfl
@[simp] theorem discardDatapath_statusDONE (s : State) : (s.discardDatapath).statusDONE = s.statusDONE := rfl
@[simp] theorem discardDatapath_statusLOCKERR (s : State) : (s.discardDatapath).statusLOCKERR = s.statusLOCKERR := rfl
@[simp] theorem discardDatapath_statusCODE (s : State) : (s.discardDatapath).statusCODE = s.statusCODE := rfl
@[simp] theorem discardDatapath_statusCAUSE (s : State) : (s.discardDatapath).statusCAUSE = s.statusCAUSE := rfl
@[simp] theorem discardDatapath_args (s : State) : (s.discardDatapath).args = s.args := rfl
@[simp] theorem discardDatapath_baseLen (s : State) : (s.discardDatapath).baseLen = s.baseLen := rfl
@[simp] theorem discardDatapath_expLen (s : State) : (s.discardDatapath).expLen = s.expLen := rfl
@[simp] theorem discardDatapath_modLen (s : State) : (s.discardDatapath).modLen = s.modLen := rfl
@[simp] theorem discardDatapath_outLen (s : State) : (s.discardDatapath).outLen = s.outLen := rfl
@[simp] theorem discardDatapath_perfCycles (s : State) : (s.discardDatapath).perfCycles = s.perfCycles := rfl
@[simp] theorem discardDatapath_mem (s : State) : (s.discardDatapath).mem = s.mem := rfl
@[simp] theorem discardDatapath_datapath (s : State) : (s.discardDatapath).datapath = discardedDatapath s.discards := rfl
@[simp] theorem discardDatapath_prdata (s : State) : (s.discardDatapath).prdata = s.prdata := rfl
@[simp] theorem discardDatapath_inputs (s : State) : (s.discardDatapath).inputs = s.inputs := rfl
@[simp] theorem discardDatapath_resets (s : State) : (s.discardDatapath).resets = s.resets := rfl
@[simp] theorem discardDatapath_clockDraws (s : State) : (s.discardDatapath).clockDraws = s.clockDraws := rfl
@[simp] theorem discardDatapath_discards (s : State) : (s.discardDatapath).discards = s.discards + 1 := rfl

@[simp] theorem lockError_maxBytes (s : State) : (s.lockError).maxBytes = s.maxBytes := rfl
@[simp] theorem lockError_ctrlIE (s : State) : (s.lockError).ctrlIE = s.ctrlIE := rfl
@[simp] theorem lockError_ctrlCMD (s : State) : (s.lockError).ctrlCMD = s.ctrlCMD := rfl
@[simp] theorem lockError_statusBUSY (s : State) : (s.lockError).statusBUSY = s.statusBUSY := rfl
@[simp] theorem lockError_statusDONE (s : State) : (s.lockError).statusDONE = s.statusDONE := rfl
@[simp] theorem lockError_statusLOCKERR (s : State) : (s.lockError).statusLOCKERR = true := rfl
@[simp] theorem lockError_statusCODE (s : State) : (s.lockError).statusCODE = s.statusCODE := rfl
@[simp] theorem lockError_statusCAUSE (s : State) : (s.lockError).statusCAUSE = s.statusCAUSE := rfl
@[simp] theorem lockError_args (s : State) : (s.lockError).args = s.args := rfl
@[simp] theorem lockError_baseLen (s : State) : (s.lockError).baseLen = s.baseLen := rfl
@[simp] theorem lockError_expLen (s : State) : (s.lockError).expLen = s.expLen := rfl
@[simp] theorem lockError_modLen (s : State) : (s.lockError).modLen = s.modLen := rfl
@[simp] theorem lockError_outLen (s : State) : (s.lockError).outLen = s.outLen := rfl
@[simp] theorem lockError_perfCycles (s : State) : (s.lockError).perfCycles = s.perfCycles := rfl
@[simp] theorem lockError_mem (s : State) : (s.lockError).mem = s.mem := rfl
@[simp] theorem lockError_datapath (s : State) : (s.lockError).datapath = s.datapath := rfl
@[simp] theorem lockError_prdata (s : State) : (s.lockError).prdata = s.prdata := rfl
@[simp] theorem lockError_inputs (s : State) : (s.lockError).inputs = s.inputs := rfl
@[simp] theorem lockError_resets (s : State) : (s.lockError).resets = s.resets := rfl
@[simp] theorem lockError_clockDraws (s : State) : (s.lockError).clockDraws = s.clockDraws := rfl
@[simp] theorem lockError_discards (s : State) : (s.lockError).discards = s.discards := rfl

@[simp] theorem writeStatus_maxBytes (w : Word) (s : State) : (s.writeStatus w).maxBytes = s.maxBytes := rfl
@[simp] theorem writeStatus_ctrlIE (w : Word) (s : State) : (s.writeStatus w).ctrlIE = s.ctrlIE := rfl
@[simp] theorem writeStatus_ctrlCMD (w : Word) (s : State) : (s.writeStatus w).ctrlCMD = s.ctrlCMD := rfl
@[simp] theorem writeStatus_statusBUSY (w : Word) (s : State) : (s.writeStatus w).statusBUSY = s.statusBUSY := rfl
@[simp] theorem writeStatus_statusDONE (w : Word) (s : State) : (s.writeStatus w).statusDONE = (s.statusDONE && !w.getLsbD 1) := rfl
@[simp] theorem writeStatus_statusLOCKERR (w : Word) (s : State) : (s.writeStatus w).statusLOCKERR = (s.statusLOCKERR && !w.getLsbD 2) := rfl
@[simp] theorem writeStatus_statusCODE (w : Word) (s : State) : (s.writeStatus w).statusCODE = s.statusCODE := rfl
@[simp] theorem writeStatus_statusCAUSE (w : Word) (s : State) : (s.writeStatus w).statusCAUSE = s.statusCAUSE := rfl
@[simp] theorem writeStatus_args (w : Word) (s : State) : (s.writeStatus w).args = s.args := rfl
@[simp] theorem writeStatus_baseLen (w : Word) (s : State) : (s.writeStatus w).baseLen = s.baseLen := rfl
@[simp] theorem writeStatus_expLen (w : Word) (s : State) : (s.writeStatus w).expLen = s.expLen := rfl
@[simp] theorem writeStatus_modLen (w : Word) (s : State) : (s.writeStatus w).modLen = s.modLen := rfl
@[simp] theorem writeStatus_outLen (w : Word) (s : State) : (s.writeStatus w).outLen = s.outLen := rfl
@[simp] theorem writeStatus_perfCycles (w : Word) (s : State) : (s.writeStatus w).perfCycles = s.perfCycles := rfl
@[simp] theorem writeStatus_mem (w : Word) (s : State) : (s.writeStatus w).mem = s.mem := rfl
@[simp] theorem writeStatus_datapath (w : Word) (s : State) : (s.writeStatus w).datapath = s.datapath := rfl
@[simp] theorem writeStatus_prdata (w : Word) (s : State) : (s.writeStatus w).prdata = s.prdata := rfl
@[simp] theorem writeStatus_inputs (w : Word) (s : State) : (s.writeStatus w).inputs = s.inputs := rfl
@[simp] theorem writeStatus_resets (w : Word) (s : State) : (s.writeStatus w).resets = s.resets := rfl
@[simp] theorem writeStatus_clockDraws (w : Word) (s : State) : (s.writeStatus w).clockDraws = s.clockDraws := rfl
@[simp] theorem writeStatus_discards (w : Word) (s : State) : (s.writeStatus w).discards = s.discards := rfl

@[simp] theorem accept_maxBytes (cmd : BitVec 8) (ie : Bool) (s : State) : (s.accept cmd ie).maxBytes = s.maxBytes := rfl
@[simp] theorem accept_ctrlIE (cmd : BitVec 8) (ie : Bool) (s : State) : (s.accept cmd ie).ctrlIE = ie := rfl
@[simp] theorem accept_ctrlCMD (cmd : BitVec 8) (ie : Bool) (s : State) : (s.accept cmd ie).ctrlCMD = cmd := rfl
@[simp] theorem accept_statusBUSY (cmd : BitVec 8) (ie : Bool) (s : State) : (s.accept cmd ie).statusBUSY = true := rfl
@[simp] theorem accept_statusDONE (cmd : BitVec 8) (ie : Bool) (s : State) : (s.accept cmd ie).statusDONE = false := rfl
@[simp] theorem accept_statusLOCKERR (cmd : BitVec 8) (ie : Bool) (s : State) : (s.accept cmd ie).statusLOCKERR = s.statusLOCKERR := rfl
@[simp] theorem accept_statusCODE (cmd : BitVec 8) (ie : Bool) (s : State) : (s.accept cmd ie).statusCODE = 0x00#8 := rfl
@[simp] theorem accept_statusCAUSE (cmd : BitVec 8) (ie : Bool) (s : State) : (s.accept cmd ie).statusCAUSE = 0#4 := rfl
@[simp] theorem accept_args (cmd : BitVec 8) (ie : Bool) (s : State) : (s.accept cmd ie).args = s.args := rfl
@[simp] theorem accept_baseLen (cmd : BitVec 8) (ie : Bool) (s : State) : (s.accept cmd ie).baseLen = s.baseLen := rfl
@[simp] theorem accept_expLen (cmd : BitVec 8) (ie : Bool) (s : State) : (s.accept cmd ie).expLen = s.expLen := rfl
@[simp] theorem accept_modLen (cmd : BitVec 8) (ie : Bool) (s : State) : (s.accept cmd ie).modLen = s.modLen := rfl
@[simp] theorem accept_outLen (cmd : BitVec 8) (ie : Bool) (s : State) : (s.accept cmd ie).outLen = s.outLen := rfl
@[simp] theorem accept_perfCycles (cmd : BitVec 8) (ie : Bool) (s : State) : (s.accept cmd ie).perfCycles = 0#32 := rfl
@[simp] theorem accept_mem (cmd : BitVec 8) (ie : Bool) (s : State) : (s.accept cmd ie).mem = s.mem := rfl
@[simp] theorem accept_datapath (cmd : BitVec 8) (ie : Bool) (s : State) : (s.accept cmd ie).datapath = discardedDatapath s.discards := rfl
@[simp] theorem accept_prdata (cmd : BitVec 8) (ie : Bool) (s : State) : (s.accept cmd ie).prdata = s.prdata := rfl
@[simp] theorem accept_inputs (cmd : BitVec 8) (ie : Bool) (s : State) : (s.accept cmd ie).inputs = s.inputs := rfl
@[simp] theorem accept_resets (cmd : BitVec 8) (ie : Bool) (s : State) : (s.accept cmd ie).resets = s.resets := rfl
@[simp] theorem accept_clockDraws (cmd : BitVec 8) (ie : Bool) (s : State) : (s.accept cmd ie).clockDraws = s.clockDraws := rfl
@[simp] theorem accept_discards (cmd : BitVec 8) (ie : Bool) (s : State) : (s.accept cmd ie).discards = s.discards + 1 := rfl

@[simp] theorem finish_maxBytes (c : Cause) (s : State) : (s.finish c).maxBytes = s.maxBytes := rfl
@[simp] theorem finish_ctrlIE (c : Cause) (s : State) : (s.finish c).ctrlIE = s.ctrlIE := rfl
@[simp] theorem finish_ctrlCMD (c : Cause) (s : State) : (s.finish c).ctrlCMD = s.ctrlCMD := rfl
@[simp] theorem finish_statusBUSY (c : Cause) (s : State) : (s.finish c).statusBUSY = false := rfl
@[simp] theorem finish_statusDONE (c : Cause) (s : State) : (s.finish c).statusDONE = true := rfl
@[simp] theorem finish_statusLOCKERR (c : Cause) (s : State) : (s.finish c).statusLOCKERR = s.statusLOCKERR := rfl
@[simp] theorem finish_statusCODE (c : Cause) (s : State) : (s.finish c).statusCODE = c.code := rfl
@[simp] theorem finish_statusCAUSE (c : Cause) (s : State) : (s.finish c).statusCAUSE = c.bits := rfl
@[simp] theorem finish_args (c : Cause) (s : State) : (s.finish c).args = s.args := rfl
@[simp] theorem finish_baseLen (c : Cause) (s : State) : (s.finish c).baseLen = s.baseLen := rfl
@[simp] theorem finish_expLen (c : Cause) (s : State) : (s.finish c).expLen = s.expLen := rfl
@[simp] theorem finish_modLen (c : Cause) (s : State) : (s.finish c).modLen = s.modLen := rfl
@[simp] theorem finish_outLen (c : Cause) (s : State) : (s.finish c).outLen = s.outLen := rfl
@[simp] theorem finish_perfCycles (c : Cause) (s : State) : (s.finish c).perfCycles = s.perfCycles := rfl
@[simp] theorem finish_mem (c : Cause) (s : State) : (s.finish c).mem = s.mem := rfl
@[simp] theorem finish_datapath (c : Cause) (s : State) : (s.finish c).datapath = discardedDatapath s.discards := rfl
@[simp] theorem finish_prdata (c : Cause) (s : State) : (s.finish c).prdata = s.prdata := rfl
@[simp] theorem finish_inputs (c : Cause) (s : State) : (s.finish c).inputs = s.inputs := rfl
@[simp] theorem finish_resets (c : Cause) (s : State) : (s.finish c).resets = s.resets := rfl
@[simp] theorem finish_clockDraws (c : Cause) (s : State) : (s.finish c).clockDraws = s.clockDraws := rfl
@[simp] theorem finish_discards (c : Cause) (s : State) : (s.finish c).discards = s.discards + 1 := rfl

@[simp] theorem writeBytes_maxBytes (X : Buf) (i : Nat) (bs : List Byte) (s : State) : (s.writeBytes X i bs).maxBytes = s.maxBytes := rfl
@[simp] theorem writeBytes_ctrlIE (X : Buf) (i : Nat) (bs : List Byte) (s : State) : (s.writeBytes X i bs).ctrlIE = s.ctrlIE := rfl
@[simp] theorem writeBytes_ctrlCMD (X : Buf) (i : Nat) (bs : List Byte) (s : State) : (s.writeBytes X i bs).ctrlCMD = s.ctrlCMD := rfl
@[simp] theorem writeBytes_statusBUSY (X : Buf) (i : Nat) (bs : List Byte) (s : State) : (s.writeBytes X i bs).statusBUSY = s.statusBUSY := rfl
@[simp] theorem writeBytes_statusDONE (X : Buf) (i : Nat) (bs : List Byte) (s : State) : (s.writeBytes X i bs).statusDONE = s.statusDONE := rfl
@[simp] theorem writeBytes_statusLOCKERR (X : Buf) (i : Nat) (bs : List Byte) (s : State) : (s.writeBytes X i bs).statusLOCKERR = s.statusLOCKERR := rfl
@[simp] theorem writeBytes_statusCODE (X : Buf) (i : Nat) (bs : List Byte) (s : State) : (s.writeBytes X i bs).statusCODE = s.statusCODE := rfl
@[simp] theorem writeBytes_statusCAUSE (X : Buf) (i : Nat) (bs : List Byte) (s : State) : (s.writeBytes X i bs).statusCAUSE = s.statusCAUSE := rfl
@[simp] theorem writeBytes_args (X : Buf) (i : Nat) (bs : List Byte) (s : State) : (s.writeBytes X i bs).args = s.args := rfl
@[simp] theorem writeBytes_baseLen (X : Buf) (i : Nat) (bs : List Byte) (s : State) : (s.writeBytes X i bs).baseLen = s.baseLen := rfl
@[simp] theorem writeBytes_expLen (X : Buf) (i : Nat) (bs : List Byte) (s : State) : (s.writeBytes X i bs).expLen = s.expLen := rfl
@[simp] theorem writeBytes_modLen (X : Buf) (i : Nat) (bs : List Byte) (s : State) : (s.writeBytes X i bs).modLen = s.modLen := rfl
@[simp] theorem writeBytes_outLen (X : Buf) (i : Nat) (bs : List Byte) (s : State) : (s.writeBytes X i bs).outLen = s.outLen := rfl
@[simp] theorem writeBytes_perfCycles (X : Buf) (i : Nat) (bs : List Byte) (s : State) : (s.writeBytes X i bs).perfCycles = s.perfCycles := rfl
@[simp] theorem writeBytes_mem (X : Buf) (i : Nat) (bs : List Byte) (s : State) : (s.writeBytes X i bs).mem = Memory.setBytes s.mem (X.window + i) bs := rfl
@[simp] theorem writeBytes_datapath (X : Buf) (i : Nat) (bs : List Byte) (s : State) : (s.writeBytes X i bs).datapath = s.datapath := rfl
@[simp] theorem writeBytes_prdata (X : Buf) (i : Nat) (bs : List Byte) (s : State) : (s.writeBytes X i bs).prdata = s.prdata := rfl
@[simp] theorem writeBytes_inputs (X : Buf) (i : Nat) (bs : List Byte) (s : State) : (s.writeBytes X i bs).inputs = s.inputs := rfl
@[simp] theorem writeBytes_resets (X : Buf) (i : Nat) (bs : List Byte) (s : State) : (s.writeBytes X i bs).resets = s.resets := rfl
@[simp] theorem writeBytes_clockDraws (X : Buf) (i : Nat) (bs : List Byte) (s : State) : (s.writeBytes X i bs).clockDraws = s.clockDraws := rfl
@[simp] theorem writeBytes_discards (X : Buf) (i : Nat) (bs : List Byte) (s : State) : (s.writeBytes X i bs).discards = s.discards := rfl

@[simp] theorem zeroBuffers_maxBytes (s : State) : (s.zeroBuffers).maxBytes = s.maxBytes := rfl
@[simp] theorem zeroBuffers_ctrlIE (s : State) : (s.zeroBuffers).ctrlIE = s.ctrlIE := rfl
@[simp] theorem zeroBuffers_ctrlCMD (s : State) : (s.zeroBuffers).ctrlCMD = s.ctrlCMD := rfl
@[simp] theorem zeroBuffers_statusBUSY (s : State) : (s.zeroBuffers).statusBUSY = s.statusBUSY := rfl
@[simp] theorem zeroBuffers_statusDONE (s : State) : (s.zeroBuffers).statusDONE = s.statusDONE := rfl
@[simp] theorem zeroBuffers_statusLOCKERR (s : State) : (s.zeroBuffers).statusLOCKERR = s.statusLOCKERR := rfl
@[simp] theorem zeroBuffers_statusCODE (s : State) : (s.zeroBuffers).statusCODE = s.statusCODE := rfl
@[simp] theorem zeroBuffers_statusCAUSE (s : State) : (s.zeroBuffers).statusCAUSE = s.statusCAUSE := rfl
@[simp] theorem zeroBuffers_args (s : State) : (s.zeroBuffers).args = s.args := rfl
@[simp] theorem zeroBuffers_baseLen (s : State) : (s.zeroBuffers).baseLen = s.baseLen := rfl
@[simp] theorem zeroBuffers_expLen (s : State) : (s.zeroBuffers).expLen = s.expLen := rfl
@[simp] theorem zeroBuffers_modLen (s : State) : (s.zeroBuffers).modLen = s.modLen := rfl
@[simp] theorem zeroBuffers_outLen (s : State) : (s.zeroBuffers).outLen = s.outLen := rfl
@[simp] theorem zeroBuffers_perfCycles (s : State) : (s.zeroBuffers).perfCycles = s.perfCycles := rfl
@[simp] theorem zeroBuffers_datapath (s : State) : (s.zeroBuffers).datapath = s.datapath := rfl
@[simp] theorem zeroBuffers_prdata (s : State) : (s.zeroBuffers).prdata = s.prdata := rfl
@[simp] theorem zeroBuffers_inputs (s : State) : (s.zeroBuffers).inputs = s.inputs := rfl
@[simp] theorem zeroBuffers_resets (s : State) : (s.zeroBuffers).resets = s.resets := rfl
@[simp] theorem zeroBuffers_clockDraws (s : State) : (s.zeroBuffers).clockDraws = s.clockDraws := rfl
@[simp] theorem zeroBuffers_discards (s : State) : (s.zeroBuffers).discards = s.discards := rfl

@[simp] theorem hostRead_maxBytes (off : Offset) (s : State) : (s.hostRead off).maxBytes = s.maxBytes := rfl
@[simp] theorem hostRead_ctrlIE (off : Offset) (s : State) : (s.hostRead off).ctrlIE = s.ctrlIE := rfl
@[simp] theorem hostRead_ctrlCMD (off : Offset) (s : State) : (s.hostRead off).ctrlCMD = s.ctrlCMD := rfl
@[simp] theorem hostRead_statusBUSY (off : Offset) (s : State) : (s.hostRead off).statusBUSY = s.statusBUSY := rfl
@[simp] theorem hostRead_statusDONE (off : Offset) (s : State) : (s.hostRead off).statusDONE = s.statusDONE := rfl
@[simp] theorem hostRead_statusLOCKERR (off : Offset) (s : State) : (s.hostRead off).statusLOCKERR = s.statusLOCKERR := rfl
@[simp] theorem hostRead_statusCODE (off : Offset) (s : State) : (s.hostRead off).statusCODE = s.statusCODE := rfl
@[simp] theorem hostRead_statusCAUSE (off : Offset) (s : State) : (s.hostRead off).statusCAUSE = s.statusCAUSE := rfl
@[simp] theorem hostRead_args (off : Offset) (s : State) : (s.hostRead off).args = s.args := rfl
@[simp] theorem hostRead_baseLen (off : Offset) (s : State) : (s.hostRead off).baseLen = s.baseLen := rfl
@[simp] theorem hostRead_expLen (off : Offset) (s : State) : (s.hostRead off).expLen = s.expLen := rfl
@[simp] theorem hostRead_modLen (off : Offset) (s : State) : (s.hostRead off).modLen = s.modLen := rfl
@[simp] theorem hostRead_outLen (off : Offset) (s : State) : (s.hostRead off).outLen = s.outLen := rfl
@[simp] theorem hostRead_perfCycles (off : Offset) (s : State) : (s.hostRead off).perfCycles = s.perfCycles := rfl
@[simp] theorem hostRead_mem (off : Offset) (s : State) : (s.hostRead off).mem = s.mem := rfl
@[simp] theorem hostRead_datapath (off : Offset) (s : State) : (s.hostRead off).datapath = s.datapath := rfl
@[simp] theorem hostRead_prdata (off : Offset) (s : State) : (s.hostRead off).prdata = s.readWord off := rfl
@[simp] theorem hostRead_inputs (off : Offset) (s : State) : (s.hostRead off).inputs = s.inputs := rfl
@[simp] theorem hostRead_resets (off : Offset) (s : State) : (s.hostRead off).resets = s.resets := rfl
@[simp] theorem hostRead_clockDraws (off : Offset) (s : State) : (s.hostRead off).clockDraws = s.clockDraws := rfl
@[simp] theorem hostRead_discards (off : Offset) (s : State) : (s.hostRead off).discards = s.discards := rfl

@[simp] theorem writeCtrlIdle_maxBytes (w : Word) (s : State) : (s.writeCtrlIdle w).maxBytes = s.maxBytes := rfl
@[simp] theorem writeCtrlIdle_ctrlIE (w : Word) (s : State) : (s.writeCtrlIdle w).ctrlIE = fieldIE w := rfl
@[simp] theorem writeCtrlIdle_ctrlCMD (w : Word) (s : State) : (s.writeCtrlIdle w).ctrlCMD = fieldCMD w := rfl
@[simp] theorem writeCtrlIdle_statusBUSY (w : Word) (s : State) : (s.writeCtrlIdle w).statusBUSY = s.statusBUSY := rfl
@[simp] theorem writeCtrlIdle_statusDONE (w : Word) (s : State) : (s.writeCtrlIdle w).statusDONE = s.statusDONE := rfl
@[simp] theorem writeCtrlIdle_statusLOCKERR (w : Word) (s : State) : (s.writeCtrlIdle w).statusLOCKERR = s.statusLOCKERR := rfl
@[simp] theorem writeCtrlIdle_statusCODE (w : Word) (s : State) : (s.writeCtrlIdle w).statusCODE = s.statusCODE := rfl
@[simp] theorem writeCtrlIdle_statusCAUSE (w : Word) (s : State) : (s.writeCtrlIdle w).statusCAUSE = s.statusCAUSE := rfl
@[simp] theorem writeCtrlIdle_args (w : Word) (s : State) : (s.writeCtrlIdle w).args = s.args := rfl
@[simp] theorem writeCtrlIdle_baseLen (w : Word) (s : State) : (s.writeCtrlIdle w).baseLen = s.baseLen := rfl
@[simp] theorem writeCtrlIdle_expLen (w : Word) (s : State) : (s.writeCtrlIdle w).expLen = s.expLen := rfl
@[simp] theorem writeCtrlIdle_modLen (w : Word) (s : State) : (s.writeCtrlIdle w).modLen = s.modLen := rfl
@[simp] theorem writeCtrlIdle_outLen (w : Word) (s : State) : (s.writeCtrlIdle w).outLen = s.outLen := rfl
@[simp] theorem writeCtrlIdle_perfCycles (w : Word) (s : State) : (s.writeCtrlIdle w).perfCycles = s.perfCycles := rfl
@[simp] theorem writeCtrlIdle_mem (w : Word) (s : State) : (s.writeCtrlIdle w).mem = s.mem := rfl
@[simp] theorem writeCtrlIdle_datapath (w : Word) (s : State) : (s.writeCtrlIdle w).datapath = s.datapath := rfl
@[simp] theorem writeCtrlIdle_prdata (w : Word) (s : State) : (s.writeCtrlIdle w).prdata = s.prdata := rfl
@[simp] theorem writeCtrlIdle_inputs (w : Word) (s : State) : (s.writeCtrlIdle w).inputs = s.inputs := rfl
@[simp] theorem writeCtrlIdle_resets (w : Word) (s : State) : (s.writeCtrlIdle w).resets = s.resets := rfl
@[simp] theorem writeCtrlIdle_clockDraws (w : Word) (s : State) : (s.writeCtrlIdle w).clockDraws = s.clockDraws := rfl
@[simp] theorem writeCtrlIdle_discards (w : Word) (s : State) : (s.writeCtrlIdle w).discards = s.discards := rfl

@[simp] theorem writeCtrlBusy_maxBytes (w : Word) (s : State) : (s.writeCtrlBusy w).maxBytes = s.maxBytes := rfl
@[simp] theorem writeCtrlBusy_ctrlIE (w : Word) (s : State) : (s.writeCtrlBusy w).ctrlIE = fieldIE w := rfl
@[simp] theorem writeCtrlBusy_ctrlCMD (w : Word) (s : State) : (s.writeCtrlBusy w).ctrlCMD = s.ctrlCMD := rfl
@[simp] theorem writeCtrlBusy_statusBUSY (w : Word) (s : State) : (s.writeCtrlBusy w).statusBUSY = s.statusBUSY := rfl
@[simp] theorem writeCtrlBusy_statusDONE (w : Word) (s : State) : (s.writeCtrlBusy w).statusDONE = s.statusDONE := rfl
@[simp] theorem writeCtrlBusy_statusLOCKERR (w : Word) (s : State) : (s.writeCtrlBusy w).statusLOCKERR = (s.statusLOCKERR || fieldSTART w) := rfl
@[simp] theorem writeCtrlBusy_statusCODE (w : Word) (s : State) : (s.writeCtrlBusy w).statusCODE = s.statusCODE := rfl
@[simp] theorem writeCtrlBusy_statusCAUSE (w : Word) (s : State) : (s.writeCtrlBusy w).statusCAUSE = s.statusCAUSE := rfl
@[simp] theorem writeCtrlBusy_args (w : Word) (s : State) : (s.writeCtrlBusy w).args = s.args := rfl
@[simp] theorem writeCtrlBusy_baseLen (w : Word) (s : State) : (s.writeCtrlBusy w).baseLen = s.baseLen := rfl
@[simp] theorem writeCtrlBusy_expLen (w : Word) (s : State) : (s.writeCtrlBusy w).expLen = s.expLen := rfl
@[simp] theorem writeCtrlBusy_modLen (w : Word) (s : State) : (s.writeCtrlBusy w).modLen = s.modLen := rfl
@[simp] theorem writeCtrlBusy_outLen (w : Word) (s : State) : (s.writeCtrlBusy w).outLen = s.outLen := rfl
@[simp] theorem writeCtrlBusy_perfCycles (w : Word) (s : State) : (s.writeCtrlBusy w).perfCycles = s.perfCycles := rfl
@[simp] theorem writeCtrlBusy_mem (w : Word) (s : State) : (s.writeCtrlBusy w).mem = s.mem := rfl
@[simp] theorem writeCtrlBusy_datapath (w : Word) (s : State) : (s.writeCtrlBusy w).datapath = s.datapath := rfl
@[simp] theorem writeCtrlBusy_prdata (w : Word) (s : State) : (s.writeCtrlBusy w).prdata = s.prdata := rfl
@[simp] theorem writeCtrlBusy_inputs (w : Word) (s : State) : (s.writeCtrlBusy w).inputs = s.inputs := rfl
@[simp] theorem writeCtrlBusy_resets (w : Word) (s : State) : (s.writeCtrlBusy w).resets = s.resets := rfl
@[simp] theorem writeCtrlBusy_clockDraws (w : Word) (s : State) : (s.writeCtrlBusy w).clockDraws = s.clockDraws := rfl
@[simp] theorem writeCtrlBusy_discards (w : Word) (s : State) : (s.writeCtrlBusy w).discards = s.discards := rfl

@[simp] theorem withInputs_maxBytes (es : List Event) (s : State) : (s.withInputs es).maxBytes = s.maxBytes := rfl
@[simp] theorem withInputs_ctrlIE (es : List Event) (s : State) : (s.withInputs es).ctrlIE = s.ctrlIE := rfl
@[simp] theorem withInputs_ctrlCMD (es : List Event) (s : State) : (s.withInputs es).ctrlCMD = s.ctrlCMD := rfl
@[simp] theorem withInputs_statusBUSY (es : List Event) (s : State) : (s.withInputs es).statusBUSY = s.statusBUSY := rfl
@[simp] theorem withInputs_statusDONE (es : List Event) (s : State) : (s.withInputs es).statusDONE = s.statusDONE := rfl
@[simp] theorem withInputs_statusLOCKERR (es : List Event) (s : State) : (s.withInputs es).statusLOCKERR = s.statusLOCKERR := rfl
@[simp] theorem withInputs_statusCODE (es : List Event) (s : State) : (s.withInputs es).statusCODE = s.statusCODE := rfl
@[simp] theorem withInputs_statusCAUSE (es : List Event) (s : State) : (s.withInputs es).statusCAUSE = s.statusCAUSE := rfl
@[simp] theorem withInputs_args (es : List Event) (s : State) : (s.withInputs es).args = s.args := rfl
@[simp] theorem withInputs_baseLen (es : List Event) (s : State) : (s.withInputs es).baseLen = s.baseLen := rfl
@[simp] theorem withInputs_expLen (es : List Event) (s : State) : (s.withInputs es).expLen = s.expLen := rfl
@[simp] theorem withInputs_modLen (es : List Event) (s : State) : (s.withInputs es).modLen = s.modLen := rfl
@[simp] theorem withInputs_outLen (es : List Event) (s : State) : (s.withInputs es).outLen = s.outLen := rfl
@[simp] theorem withInputs_perfCycles (es : List Event) (s : State) : (s.withInputs es).perfCycles = s.perfCycles := rfl
@[simp] theorem withInputs_mem (es : List Event) (s : State) : (s.withInputs es).mem = s.mem := rfl
@[simp] theorem withInputs_datapath (es : List Event) (s : State) : (s.withInputs es).datapath = s.datapath := rfl
@[simp] theorem withInputs_prdata (es : List Event) (s : State) : (s.withInputs es).prdata = s.prdata := rfl
@[simp] theorem withInputs_inputs (es : List Event) (s : State) : (s.withInputs es).inputs = es := rfl
@[simp] theorem withInputs_resets (es : List Event) (s : State) : (s.withInputs es).resets = s.resets := rfl
@[simp] theorem withInputs_clockDraws (es : List Event) (s : State) : (s.withInputs es).clockDraws = s.clockDraws := rfl
@[simp] theorem withInputs_discards (es : List Event) (s : State) : (s.withInputs es).discards = s.discards := rfl

@[simp] theorem resetEvent_maxBytes (s : State) : (s.resetEvent).maxBytes = s.maxBytes := rfl
@[simp] theorem resetEvent_ctrlIE (s : State) : (s.resetEvent).ctrlIE = State.reset.ctrlIE := rfl
@[simp] theorem resetEvent_ctrlCMD (s : State) : (s.resetEvent).ctrlCMD = State.reset.ctrlCMD := rfl
@[simp] theorem resetEvent_statusBUSY (s : State) : (s.resetEvent).statusBUSY = State.reset.statusBUSY := rfl
@[simp] theorem resetEvent_statusDONE (s : State) : (s.resetEvent).statusDONE = State.reset.statusDONE := rfl
@[simp] theorem resetEvent_statusLOCKERR (s : State) : (s.resetEvent).statusLOCKERR = State.reset.statusLOCKERR := rfl
@[simp] theorem resetEvent_statusCODE (s : State) : (s.resetEvent).statusCODE = State.reset.statusCODE := rfl
@[simp] theorem resetEvent_statusCAUSE (s : State) : (s.resetEvent).statusCAUSE = State.reset.statusCAUSE := rfl
@[simp] theorem resetEvent_args (s : State) : (s.resetEvent).args = State.reset.args := rfl
@[simp] theorem resetEvent_baseLen (s : State) : (s.resetEvent).baseLen = State.reset.baseLen := rfl
@[simp] theorem resetEvent_expLen (s : State) : (s.resetEvent).expLen = State.reset.expLen := rfl
@[simp] theorem resetEvent_modLen (s : State) : (s.resetEvent).modLen = State.reset.modLen := rfl
@[simp] theorem resetEvent_outLen (s : State) : (s.resetEvent).outLen = State.reset.outLen := rfl
@[simp] theorem resetEvent_perfCycles (s : State) : (s.resetEvent).perfCycles = State.reset.perfCycles := rfl
@[simp] theorem resetEvent_mem (s : State) : (s.resetEvent).mem = State.reset.mem := rfl
@[simp] theorem resetEvent_datapath (s : State) : (s.resetEvent).datapath = State.reset.datapath := rfl
@[simp] theorem resetEvent_prdata (s : State) : (s.resetEvent).prdata = s.prdata := rfl
@[simp] theorem resetEvent_inputs (s : State) : (s.resetEvent).inputs = s.inputs := rfl
@[simp] theorem resetEvent_resets (s : State) : (s.resetEvent).resets = s.resets + 1 := rfl
@[simp] theorem resetEvent_clockDraws (s : State) : (s.resetEvent).clockDraws = s.clockDraws := rfl
@[simp] theorem resetEvent_discards (s : State) : (s.resetEvent).discards = s.discards := rfl

@[simp] theorem tick_maxBytes (s : State) : (s.tick).maxBytes = s.maxBytes := by rw [tick_eq]
@[simp] theorem tick_ctrlIE (s : State) : (s.tick).ctrlIE = s.ctrlIE := by rw [tick_eq]
@[simp] theorem tick_ctrlCMD (s : State) : (s.tick).ctrlCMD = s.ctrlCMD := by rw [tick_eq]
@[simp] theorem tick_statusBUSY (s : State) : (s.tick).statusBUSY = s.statusBUSY := by rw [tick_eq]
@[simp] theorem tick_statusDONE (s : State) : (s.tick).statusDONE = s.statusDONE := by rw [tick_eq]
@[simp] theorem tick_statusLOCKERR (s : State) : (s.tick).statusLOCKERR = s.statusLOCKERR := by rw [tick_eq]
@[simp] theorem tick_statusCODE (s : State) : (s.tick).statusCODE = s.statusCODE := by rw [tick_eq]
@[simp] theorem tick_statusCAUSE (s : State) : (s.tick).statusCAUSE = s.statusCAUSE := by rw [tick_eq]
@[simp] theorem tick_args (s : State) : (s.tick).args = s.args := by rw [tick_eq]
@[simp] theorem tick_baseLen (s : State) : (s.tick).baseLen = s.baseLen := by rw [tick_eq]
@[simp] theorem tick_expLen (s : State) : (s.tick).expLen = s.expLen := by rw [tick_eq]
@[simp] theorem tick_modLen (s : State) : (s.tick).modLen = s.modLen := by rw [tick_eq]
@[simp] theorem tick_outLen (s : State) : (s.tick).outLen = s.outLen := by rw [tick_eq]
@[simp] theorem tick_mem (s : State) : (s.tick).mem = s.mem := by rw [tick_eq]
@[simp] theorem tick_datapath (s : State) : (s.tick).datapath = s.datapath := by rw [tick_eq]
@[simp] theorem tick_prdata (s : State) : (s.tick).prdata = s.prdata := by rw [tick_eq]
@[simp] theorem tick_inputs (s : State) : (s.tick).inputs = s.inputs := by rw [tick_eq]
@[simp] theorem tick_resets (s : State) : (s.tick).resets = s.resets := by rw [tick_eq]
@[simp] theorem tick_discards (s : State) : (s.tick).discards = s.discards := by rw [tick_eq]

@[simp] theorem internalStep_maxBytes (s : State) : (s.internalStep).maxBytes = s.maxBytes := by rw [internalStep_eq]
@[simp] theorem internalStep_ctrlIE (s : State) : (s.internalStep).ctrlIE = s.ctrlIE := by rw [internalStep_eq]
@[simp] theorem internalStep_ctrlCMD (s : State) : (s.internalStep).ctrlCMD = s.ctrlCMD := by rw [internalStep_eq]
@[simp] theorem internalStep_statusBUSY (s : State) : (s.internalStep).statusBUSY = s.statusBUSY := by rw [internalStep_eq]
@[simp] theorem internalStep_statusDONE (s : State) : (s.internalStep).statusDONE = s.statusDONE := by rw [internalStep_eq]
@[simp] theorem internalStep_statusLOCKERR (s : State) : (s.internalStep).statusLOCKERR = s.statusLOCKERR := by rw [internalStep_eq]
@[simp] theorem internalStep_statusCODE (s : State) : (s.internalStep).statusCODE = s.statusCODE := by rw [internalStep_eq]
@[simp] theorem internalStep_statusCAUSE (s : State) : (s.internalStep).statusCAUSE = s.statusCAUSE := by rw [internalStep_eq]
@[simp] theorem internalStep_args (s : State) : (s.internalStep).args = s.args := by rw [internalStep_eq]
@[simp] theorem internalStep_baseLen (s : State) : (s.internalStep).baseLen = s.baseLen := by rw [internalStep_eq]
@[simp] theorem internalStep_expLen (s : State) : (s.internalStep).expLen = s.expLen := by rw [internalStep_eq]
@[simp] theorem internalStep_modLen (s : State) : (s.internalStep).modLen = s.modLen := by rw [internalStep_eq]
@[simp] theorem internalStep_outLen (s : State) : (s.internalStep).outLen = s.outLen := by rw [internalStep_eq]
@[simp] theorem internalStep_perfCycles (s : State) : (s.internalStep).perfCycles = s.perfCycles := by rw [internalStep_eq]
@[simp] theorem internalStep_mem (s : State) : (s.internalStep).mem = s.mem := by rw [internalStep_eq]
@[simp] theorem internalStep_prdata (s : State) : (s.internalStep).prdata = s.prdata := by rw [internalStep_eq]
@[simp] theorem internalStep_inputs (s : State) : (s.internalStep).inputs = s.inputs := by rw [internalStep_eq]
@[simp] theorem internalStep_resets (s : State) : (s.internalStep).resets = s.resets := by rw [internalStep_eq]
@[simp] theorem internalStep_clockDraws (s : State) : (s.internalStep).clockDraws = s.clockDraws := by rw [internalStep_eq]
@[simp] theorem internalStep_discards (s : State) : (s.internalStep).discards = s.discards := by rw [internalStep_eq]

@[simp] theorem writeWindow_maxBytes (X : Buf) (o : Nat) (w : Word) (st : Strobe) (s : State) : (s.writeWindow X o w st).maxBytes = s.maxBytes := by rw [writeWindow_eq]
@[simp] theorem writeWindow_ctrlIE (X : Buf) (o : Nat) (w : Word) (st : Strobe) (s : State) : (s.writeWindow X o w st).ctrlIE = s.ctrlIE := by rw [writeWindow_eq]
@[simp] theorem writeWindow_ctrlCMD (X : Buf) (o : Nat) (w : Word) (st : Strobe) (s : State) : (s.writeWindow X o w st).ctrlCMD = s.ctrlCMD := by rw [writeWindow_eq]
@[simp] theorem writeWindow_statusBUSY (X : Buf) (o : Nat) (w : Word) (st : Strobe) (s : State) : (s.writeWindow X o w st).statusBUSY = s.statusBUSY := by rw [writeWindow_eq]
@[simp] theorem writeWindow_statusDONE (X : Buf) (o : Nat) (w : Word) (st : Strobe) (s : State) : (s.writeWindow X o w st).statusDONE = s.statusDONE := by rw [writeWindow_eq]
@[simp] theorem writeWindow_statusLOCKERR (X : Buf) (o : Nat) (w : Word) (st : Strobe) (s : State) : (s.writeWindow X o w st).statusLOCKERR = s.statusLOCKERR := by rw [writeWindow_eq]
@[simp] theorem writeWindow_statusCODE (X : Buf) (o : Nat) (w : Word) (st : Strobe) (s : State) : (s.writeWindow X o w st).statusCODE = s.statusCODE := by rw [writeWindow_eq]
@[simp] theorem writeWindow_statusCAUSE (X : Buf) (o : Nat) (w : Word) (st : Strobe) (s : State) : (s.writeWindow X o w st).statusCAUSE = s.statusCAUSE := by rw [writeWindow_eq]
@[simp] theorem writeWindow_args (X : Buf) (o : Nat) (w : Word) (st : Strobe) (s : State) : (s.writeWindow X o w st).args = s.args := by rw [writeWindow_eq]
@[simp] theorem writeWindow_baseLen (X : Buf) (o : Nat) (w : Word) (st : Strobe) (s : State) : (s.writeWindow X o w st).baseLen = s.baseLen := by rw [writeWindow_eq]
@[simp] theorem writeWindow_expLen (X : Buf) (o : Nat) (w : Word) (st : Strobe) (s : State) : (s.writeWindow X o w st).expLen = s.expLen := by rw [writeWindow_eq]
@[simp] theorem writeWindow_modLen (X : Buf) (o : Nat) (w : Word) (st : Strobe) (s : State) : (s.writeWindow X o w st).modLen = s.modLen := by rw [writeWindow_eq]
@[simp] theorem writeWindow_outLen (X : Buf) (o : Nat) (w : Word) (st : Strobe) (s : State) : (s.writeWindow X o w st).outLen = s.outLen := by rw [writeWindow_eq]
@[simp] theorem writeWindow_perfCycles (X : Buf) (o : Nat) (w : Word) (st : Strobe) (s : State) : (s.writeWindow X o w st).perfCycles = s.perfCycles := by rw [writeWindow_eq]
@[simp] theorem writeWindow_datapath (X : Buf) (o : Nat) (w : Word) (st : Strobe) (s : State) : (s.writeWindow X o w st).datapath = s.datapath := by rw [writeWindow_eq]
@[simp] theorem writeWindow_prdata (X : Buf) (o : Nat) (w : Word) (st : Strobe) (s : State) : (s.writeWindow X o w st).prdata = s.prdata := by rw [writeWindow_eq]
@[simp] theorem writeWindow_inputs (X : Buf) (o : Nat) (w : Word) (st : Strobe) (s : State) : (s.writeWindow X o w st).inputs = s.inputs := by rw [writeWindow_eq]
@[simp] theorem writeWindow_resets (X : Buf) (o : Nat) (w : Word) (st : Strobe) (s : State) : (s.writeWindow X o w st).resets = s.resets := by rw [writeWindow_eq]
@[simp] theorem writeWindow_clockDraws (X : Buf) (o : Nat) (w : Word) (st : Strobe) (s : State) : (s.writeWindow X o w st).clockDraws = s.clockDraws := by rw [writeWindow_eq]
@[simp] theorem writeWindow_discards (X : Buf) (o : Nat) (w : Word) (st : Strobe) (s : State) : (s.writeWindow X o w st).discards = s.discards := by rw [writeWindow_eq]

end Sys2Proof.Machine
end

