-- ==== Sys2Proof/Laws/Memory.lean ====
section
/-! SUPPORT. The laws of memory and of the buffers: read after write, and that every memory operation keeps the canonical
form. -/

namespace Sys2Proof.Machine

/-- A byte written is read back. -/
@[simp] theorem Memory.get_set_same (m : List Host.Cell) (a : Nat) (b : Byte) :
    Memory.get (Memory.set m a b) a = some b := by
  induction m with
  | nil => simp [Memory.set, Memory.get]
  | cons c m ih =>
    simp only [Memory.set]
    split
    · simp [Memory.get]
    · split
      · simp [Memory.get]
      · have : c.1 ≠ a := fun h => by omega
        simp [Memory.get, this, ih]

/-- A write leaves every other address alone. -/
theorem Memory.get_set_other (m : List Host.Cell) {a k : Nat} (b : Byte) (h : k ≠ a) :
    Memory.get (Memory.set m a b) k = Memory.get m k := by
  have h' : a ≠ k := fun e => h e.symm
  induction m with
  | nil => simp [Memory.set, Memory.get, h']
  | cons c m ih =>
    simp only [Memory.set]
    split
    · simp [Memory.get, h']
    · split
      · rename_i heq
        simp [Memory.get, h', ← heq]
      · simp [Memory.get, ih]

/-- What bytes written at consecutive addresses read as. -/
theorem Memory.get_setBytes (m : List Host.Cell) (a k : Nat) (bs : List Byte) :
    Memory.get (Memory.setBytes m a bs) k =
      if a ≤ k ∧ k < a + bs.length then bs[k - a]? else Memory.get m k := by
  induction bs generalizing m a with
  | nil => simp [Memory.setBytes]
  | cons b bs ih =>
    simp only [Memory.setBytes, ih, List.length_cons]
    by_cases hk : k = a
    · subst hk
      simp
    · by_cases hin : a + 1 ≤ k ∧ k < a + 1 + bs.length
      · obtain ⟨j, rfl⟩ : ∃ j, k = a + 1 + j := ⟨k - (a + 1), by omega⟩
        have h1 : a + 1 + j - (a + 1) = j := by omega
        have h2 : a + 1 + j - a = j + 1 := by omega
        rw [if_pos hin, if_pos (by omega), h1, h2, List.getElem?_cons_succ]
      · rw [if_neg hin, if_neg (by omega), Memory.get_set_other _ _ hk]

/-- Where a cell of a written memory comes from. -/
theorem Memory.mem_set {m : List Host.Cell} {a : Nat} {b : Byte} {c : Host.Cell}
    (h : c ∈ Memory.set m a b) : c = (a, b) ∨ c ∈ m := by
  induction m with
  | nil => simpa [Memory.set] using h
  | cons d m ih =>
    simp only [Memory.set] at h
    split at h
    · simpa using h
    · split at h
      · rcases List.mem_cons.1 h with h | h <;> simp [h]
      · rcases List.mem_cons.1 h with h | h
        · simp [h]
        · rcases ih h with h | h <;> simp [h]

/-- A write keeps the canonical form. -/
theorem Memory.set_wf {m : List Host.Cell} (a : Nat) (b : Byte) (h : Memory.wf m) :
    Memory.wf (Memory.set m a b) := by
  induction m with
  | nil => simp [Memory.set, Memory.wf]
  | cons c m ih =>
    rw [Memory.wf, List.pairwise_cons] at h
    obtain ⟨hc, hm⟩ := h
    simp only [Memory.set]
    split
    · rename_i hlt
      refine List.pairwise_cons.2 ⟨?_, List.pairwise_cons.2 ⟨hc, hm⟩⟩
      intro d hd
      rcases List.mem_cons.1 hd with rfl | hd
      · exact hlt
      · exact Nat.lt_trans hlt (hc d hd)
    · split
      · rename_i heq
        exact List.pairwise_cons.2 ⟨fun d hd => heq ▸ hc d hd, hm⟩
      · refine List.pairwise_cons.2 ⟨fun d hd => ?_, ih hm⟩
        rcases Memory.mem_set hd with rfl | hd
        · show c.1 < a
          omega
        · exact hc d hd

/-- Writing bytes keeps the canonical form. -/
theorem Memory.setBytes_wf {m : List Host.Cell} (a : Nat) (bs : List Byte) (h : Memory.wf m) :
    Memory.wf (Memory.setBytes m a bs) := by
  induction bs generalizing m a with
  | nil => exact h
  | cons b bs ih => exact ih _ (Memory.set_wf a b h)

/-- Where a cell comes from after bytes are written. -/
theorem Memory.mem_setBytes {m : List Host.Cell} {a : Nat} {bs : List Byte} {c : Host.Cell}
    (h : c ∈ Memory.setBytes m a bs) : (a ≤ c.1 ∧ c.1 < a + bs.length) ∨ c ∈ m := by
  induction bs generalizing m a with
  | nil => exact .inr h
  | cons b bs ih =>
    rcases ih h with h | h
    · left; simp only [List.length_cons]; omega
    · rcases Memory.mem_set h with rfl | h
      · left; simp
      · exact .inr h

/-- The cells of a run of zero bytes. -/
theorem Memory.mem_zeroCells {a n : Nat} {c : Host.Cell} :
    c ∈ Memory.zeroCells a n ↔ a ≤ c.1 ∧ c.1 < a + n ∧ c.2 = 0#8 := by
  rcases c with ⟨k, b⟩
  simp only [Memory.zeroCells, List.mem_map, List.mem_range, Prod.mk.injEq]
  constructor
  · rintro ⟨i, hi, rfl, rfl⟩
    exact ⟨by omega, by omega, rfl⟩
  · rintro ⟨h1, h2, h3⟩
    exact ⟨k - a, by omega, by omega, h3.symm⟩

/-- A run of zero bytes is canonical. -/
theorem Memory.zeroCells_wf (a n : Nat) : Memory.wf (Memory.zeroCells a n) := by
  simp only [Memory.wf, Memory.zeroCells, List.pairwise_map]
  exact List.pairwise_lt_range.imp (by intro i j h; simpa using h)

/-- A cell found in memory is one of its cells. -/
theorem Memory.get_eq_some {m : List Host.Cell} {a : Nat} {b : Byte} (h : Memory.get m a = some b) :
    (a, b) ∈ m := by
  induction m with
  | nil => simp [Memory.get] at h
  | cons c m ih =>
    simp only [Memory.get] at h
    split at h
    · rename_i heq
      have : c = (a, b) := Prod.ext heq (by simpa using h)
      simp [this]
    · exact List.mem_cons_of_mem _ (ih h)

/-- An address some cell has is found. -/
theorem Memory.get_isSome {m : List Host.Cell} {c : Host.Cell} (h : c ∈ m) : (Memory.get m c.1).isSome = true := by
  induction m with
  | nil => simp at h
  | cons d m ih =>
    simp only [Memory.get]
    split
    · rfl
    · rename_i hne
      rcases List.mem_cons.1 h with rfl | h
      · exact absurd rfl hne
      · exact ih h

/-- The cells of the four zeroed buffers. -/
theorem mem_zeroBuffers {s : State} {c : Host.Cell} :
    c ∈ s.zeroBuffers.mem ↔ c.2 = 0#8 ∧ Backed s.maxBytes c.1 := by
  simp only [State.zeroBuffers, List.mem_append, Memory.mem_zeroCells, Backed]
  constructor
  · rintro (((⟨h1, h2, h3⟩ | ⟨h1, h2, h3⟩) | ⟨h1, h2, h3⟩) | ⟨h1, h2, h3⟩)
    · exact ⟨h3, .base, h1, h2⟩
    · exact ⟨h3, .exp, h1, h2⟩
    · exact ⟨h3, .mod, h1, h2⟩
    · exact ⟨h3, .out, h1, h2⟩
  · rintro ⟨h3, X, h1, h2⟩
    cases X <;> simp [h1, h2, h3]

/-- ZEROIZE's memory is canonical for a legal MAX_BYTES: the windows do not overlap. -/
theorem zeroBuffers_wf {s : State} (h : Config.legalMaxBytes s.maxBytes = true) : Memory.wf s.zeroBuffers.mem := by
  have hle : s.maxBytes ≤ 4096 := by
    simp [Config.legalMaxBytes] at h
    exact h.2
  simp only [Memory.wf, State.zeroBuffers, List.pairwise_append, List.mem_append, Memory.mem_zeroCells, Buf.window]
  refine ⟨⟨⟨Memory.zeroCells_wf _ _, Memory.zeroCells_wf _ _, ?_⟩, Memory.zeroCells_wf _ _, ?_⟩,
    Memory.zeroCells_wf _ _, ?_⟩ <;> intros <;> omega

/-- After ZEROIZE's write every buffer byte reads 0 (R204). -/
@[simp] theorem readByte_zeroBuffers (s : State) (X : Buf) (i : Nat) : s.zeroBuffers.readByte X i = 0#8 := by
  unfold State.readByte
  rw [zeroBuffers_maxBytes]
  by_cases hi : i < s.maxBytes
  · rw [if_pos hi]
    have hmem : (X.window + i, 0#8) ∈ s.zeroBuffers.mem := mem_zeroBuffers.2 ⟨rfl, X, by simp, by simpa using hi⟩
    obtain ⟨b, hb⟩ := Option.isSome_iff_exists.1 (Memory.get_isSome hmem)
    have := (mem_zeroBuffers.1 (Memory.get_eq_some hb)).1
    simp_all
  · rw [if_neg hi]

/-- A legal MAX_BYTES is at most the 4096 bytes of a window. -/
theorem legal_le {n : Nat} (h : Config.legalMaxBytes n = true) : n ≤ 4096 := by
  simp [Config.legalMaxBytes] at h
  exact h.2

/-- Windows of at most 4096 bytes do not meet. -/
theorem window_disjoint {X Y : Buf} {i j : Nat} (hi : i < 4096) (hj : j < 4096) :
    X.window + i = Y.window + j ↔ X = Y ∧ i = j := by
  cases X <;> cases Y <;> simp [Buf.window] <;> omega

/-- What a byte reads as after bytes are written into a window (R77): the written bytes inside, the old byte outside. -/
theorem readByte_writeBytes {s : State} (hl : Config.legalMaxBytes s.maxBytes = true) (X Y : Buf) (i k : Nat)
    (bs : List Byte) (hfit : i + bs.length ≤ s.maxBytes) :
    (s.writeBytes X i bs).readByte Y k =
      if Y = X ∧ i ≤ k ∧ k < i + bs.length then bs.getD (k - i) 0#8 else s.readByte Y k := by
  have hle := legal_le hl
  simp only [State.readByte, writeBytes_maxBytes, writeBytes_mem, writeBytes_resets, Memory.get_setBytes]
  by_cases hk : k < s.maxBytes
  · simp only [if_pos hk]
    by_cases hY : Y = X ∧ i ≤ k ∧ k < i + bs.length
    · obtain ⟨rfl, h1, h2⟩ := hY
      have hlt : k - i < bs.length := by omega
      rw [if_pos (⟨rfl, h1, h2⟩ : Y = Y ∧ i ≤ k ∧ k < i + bs.length), if_pos (by omega),
        show Y.window + k - (Y.window + i) = k - i by omega, List.getElem?_eq_getElem hlt]
      simp [List.getD, List.getElem?_eq_getElem hlt]
    · rw [if_neg hY, if_neg]
      rintro ⟨h1, h2⟩
      apply hY
      have : Y.window + k = X.window + (Y.window + k - X.window) := by omega
      have hX := (window_disjoint (X := Y) (Y := X) (i := k) (j := Y.window + k - X.window) (by omega) (by omega)).1 this
      exact ⟨hX.1, by omega, by omega⟩
  · simp only [if_neg hk]
    rw [if_neg]
    omega

end Sys2Proof.Machine
end

