-- ==== Sys2Proof/Laws/Arith.lean ====
section
/-! SUPPORT. What the arithmetic functions and Import and Export compute. -/

namespace Sys2Proof.Machine

/-- A value is below 2 to the number of its bits (R10). -/
theorem lt_two_pow_bitlen (v : Nat) : v < 2 ^ bitlen v := by
  unfold bitlen
  split
  · simp_all
  · exact Nat.lt_log2_self

/-- The bits of a value bounded by a power of two (R10). -/
theorem bitlen_le {v n : Nat} (h : v < 2 ^ n) : bitlen v ≤ n := by
  unfold bitlen
  split
  · omega
  · rename_i hv
    exact (Nat.log2_lt hv).2 h

/-- Every result exports to at least one byte (R76). -/
theorem exportLength_pos (r : Nat) : 1 ≤ exportLength r := Nat.le_max_left _ _

/-- Export's byte list has length n (R76). -/
@[simp] theorem length_exportBytes (r : Nat) : (exportBytes r).length = exportLength r := by
  simp [exportBytes]

/-- A result below 256^L exports to at most L bytes (R123). -/
theorem exportLength_le {r L : Nat} (hL : 1 ≤ L) (h : r < 256 ^ L) : exportLength r ≤ L := by
  have h2 : r < 2 ^ (8 * L) := by rw [Nat.pow_mul]; exact h
  have := bitlen_le h2
  unfold exportLength
  omega

/-- A result is below 256^n for its export length n (R76). -/
theorem lt_pow_exportLength (r : Nat) : r < 256 ^ exportLength r := by
  have h1 : bitlen r ≤ 8 * exportLength r := by unfold exportLength; omega
  have h2 := Nat.lt_of_lt_of_le (lt_two_pow_bitlen r) (Nat.pow_le_pow_right (by decide) h1)
  rwa [Nat.pow_mul] at h2

/-- A big-endian sum of `n` bytes is below 256^n (R75). -/
theorem bigEndian_lt (f : Nat → Byte) (n : Nat) :
    ((List.range n).map fun i => (f i).toNat * 256 ^ (n - 1 - i)).sum < 256 ^ n := by
  induction n generalizing f with
  | zero => simp
  | succ n ih =>
    rw [List.range_succ_eq_map]
    simp only [List.map_cons, List.map_map, List.sum_cons]
    have hf : ((List.range n).map ((fun i => (f i).toNat * 256 ^ (n + 1 - 1 - i)) ∘ Nat.succ)) =
        (List.range n).map fun i => (f (i + 1)).toNat * 256 ^ (n - 1 - i) := by
      apply List.map_congr_left
      intro i hi
      simp only [Function.comp, Nat.succ_eq_add_one, Nat.add_sub_cancel]
      congr 2
      omega
    rw [hf]
    have h1 := ih (fun i => f (i + 1))
    have h2 : (f 0).toNat ≤ 255 := by have := (f 0).isLt; omega
    have h3 : (f 0).toNat * 256 ^ (n + 1 - 1 - 0) ≤ 255 * 256 ^ n := by
      simpa using Nat.mul_le_mul_right (256 ^ n) h2
    have h4 : 256 ^ (n + 1) = 255 * 256 ^ n + 256 ^ n := by rw [Nat.pow_succ]; ring
    omega

/-- An imported operand is below 256^L (R75, R123). -/
theorem importValue_lt (s : State) (X : Buf) : s.importValue X < 256 ^ s.lenOf X :=
  bigEndian_lt _ _

/-- The loop of `powMod` from an accumulator that holds a power of `b` (R145, R147). -/
theorem powModBits_eq (b e m : Nat) (n k : Nat) :
    powModBits (b % m) e m n (b ^ k % m) = b ^ (k * 2 ^ n + e % 2 ^ n) % m := by
  induction n generalizing k with
  | zero => simp [powModBits, Nat.mod_one]
  | succ n ih =>
    have hbit : e % 2 ^ (n + 1) = (if e.testBit n then 2 ^ n else 0) + e % 2 ^ n := by
      rw [Nat.pow_succ, Nat.mod_mul, Nat.testBit_eq_decide_div_mod_eq]
      rcases Nat.mod_two_eq_zero_or_one (e / 2 ^ n) with h | h <;> simp [h, Nat.add_comm]
    have hsq : b ^ k % m * (b ^ k % m) % m = b ^ (2 * k) % m := by
      rw [← Nat.mul_mod, ← Nat.pow_add]; congr 2; omega
    simp only [powModBits]
    split
    · rename_i hb
      rw [hsq, ← Nat.mul_mod, ← Nat.pow_succ, ih, hbit, if_pos hb, Nat.pow_succ]
      congr 2
      simp only [Nat.succ_eq_add_one]
      ring
    · rename_i hb
      rw [hsq, ih, hbit, if_neg hb, Nat.pow_succ]
      congr 2
      ring

/-- The efficient power is pow(b, e) mod m (R140). -/
theorem powMod_eq (b e m : Nat) : powMod b e m = b ^ e % m := by
  have h := powModBits_eq b e m (bitlen e) 0
  rw [Nat.pow_zero, Nat.zero_mul, Nat.zero_add, Nat.mod_eq_of_lt (lt_two_pow_bitlen e)] at h
  exact h

/-- Every command's result is below a nonzero modulus (R121). -/
theorem compute_lt (op : ArithOp) (a e : Nat) {m : Nat} (h : m ≠ 0) : compute op a e m < m := by
  have hm : 0 < m := by omega
  cases op
  · simpa [compute, powMod_eq] using Nat.mod_lt _ hm
  · exact Nat.mod_lt _ hm
  · exact Nat.mod_lt _ hm
  · exact Nat.mod_lt _ hm

end Sys2Proof.Machine
end

