-- ==== Sys2Proof/Laws/Step.lean ====
section
/-! SUPPORT. What a command's move, a transfer and a step can do: cited instead of unfolding `step`. -/

namespace Sys2Proof.Machine

/-- The outcome of the command with a given opcode (R113): Execute of the running command. -/
def commandOutcome (cmd : BitVec 8) (s : State) : CmdOutcome :=
  if cmd = 0x01#8 then execute .modexp s
  else if cmd = 0x02#8 then execute .modmul s
  else if cmd = 0x03#8 then execute .modred s
  else if cmd = 0x04#8 then execute .montmul s
  else if cmd = 0x0F#8 then .zeroize
  else .error .illegalCmd

/-- exec's move while BUSY = 0 is acceptance, and while BUSY = 1 the completion with the opcode's outcome. -/
theorem exec_eq (i : Instr) (s : State) :
    exec i s = .next (if s.statusBUSY then complete (commandOutcome i.opcode s) s else s.accept i.opcode i.ie) := by
  cases i <;> cases h : s.statusBUSY <;>
    simp [exec, execModexp, execModmul, execModred, execMontmul, execZeroize, runCommand, h, commandOutcome,
      Instr.opcode, Instr.ie]

/-- `exec` always answers a next state. -/
theorem exec_next (i : Instr) (s : State) : isNext (exec i s) := ⟨_, exec_eq i s⟩

/-- `exec` of a result-computing command while BUSY = 1. -/
theorem exec_arith (op : ArithOp) (ie : Bool) (s : State) (h : s.statusBUSY = true) :
    exec (op.instr ie) s = .next (complete (execute op s) s) := by
  cases op <;> simp [exec_eq, ArithOp.instr, h, Instr.opcode, commandOutcome]

/-- A word with START = 1 takes the next move of the command in its CMD field, legal or not (R91, R92). -/
theorem runWord_start (w : Word) (s : State) (hw : fieldSTART w = true) :
    runWord w s = .next (if s.statusBUSY then complete (commandOutcome (fieldCMD w) s) s
      else s.accept (fieldCMD w) (fieldIE w)) := by
  unfold runWord decode decodeCMD
  rw [if_pos hw]
  by_cases h1 : fieldCMD w = 0x01#8
  · simp only [h1, if_pos, exec_eq]; rfl
  by_cases h2 : fieldCMD w = 0x02#8
  · simp only [h2, exec_eq]; rfl
  by_cases h3 : fieldCMD w = 0x03#8
  · simp only [h3, exec_eq]; rfl
  by_cases h4 : fieldCMD w = 0x04#8
  · simp only [h4, exec_eq]; rfl
  by_cases h5 : fieldCMD w = 0x0F#8
  · simp only [h5, exec_eq]; rfl
  simp only [h1, h2, h3, h4, h5, if_false, execIllegal, runCommand, commandOutcome]
  cases s.statusBUSY <;> rfl

/-- A word with START = 0 only sets IE and CMD (R110). -/
theorem runWord_noStart (w : Word) (s : State) (hw : fieldSTART w = false) :
    runWord w s = .next (s.writeCtrlIdle w) := by
  simp [runWord, decode, hw]

/-- START of a CTRL word built from its fields. -/
@[simp] theorem fieldSTART_ctrlWord (cmd : BitVec 8) (ie st : Bool) : fieldSTART (ctrlWord cmd ie st) = st := by
  simp only [fieldSTART, ctrlWord, BitVec.getLsbD_append, BitVec.getLsbD_ofBool]
  simp

/-- IE of a CTRL word built from its fields. -/
@[simp] theorem fieldIE_ctrlWord (cmd : BitVec 8) (ie st : Bool) : fieldIE (ctrlWord cmd ie st) = ie := by
  simp only [fieldIE, ctrlWord, BitVec.getLsbD_append, BitVec.getLsbD_ofBool]
  simp

/-- CMD of a CTRL word built from its fields. -/
@[simp] theorem fieldCMD_ctrlWord (cmd : BitVec 8) (ie st : Bool) : fieldCMD (ctrlWord cmd ie st) = cmd := by
  apply BitVec.eq_of_getLsbD_eq
  intro i hi
  simp only [fieldCMD, ctrlWord, BitVec.getLsbD_extractLsb', BitVec.getLsbD_append, BitVec.getLsbD_ofBool]
  interval_cases i <;> simp

/-- The ENGINE's completion step (R124). -/
theorem engineComplete_eq (s : State) :
    engineComplete s = .next (if s.statusBUSY then complete (commandOutcome s.ctrlCMD s) s else s) := by
  unfold engineComplete
  cases h : s.statusBUSY
  · rfl
  · rw [if_pos rfl, if_pos rfl, State.runningWord, runWord_start _ _ (fieldSTART_ctrlWord _ _ _), h, if_pos rfl,
      fieldCMD_ctrlWord]

/-- The state a full-strobe CTRL write leaves (R68, R110). -/
def State.afterCtrl (w : Word) (s : State) : State :=
  if s.statusBUSY then s.writeCtrlBusy w
  else if fieldSTART w then s.accept (fieldCMD w) (fieldIE w) else s.writeCtrlIdle w

/-- A full-strobe CTRL write always answers a next state. -/
theorem writeCtrl_eq (w : Word) (s : State) : writeCtrl w s = .next (s.afterCtrl w) := by
  unfold writeCtrl State.afterCtrl
  cases h : s.statusBUSY
  · cases hw : fieldSTART w
    · simp [runWord_noStart _ _ hw]
    · simp [runWord_start _ _ hw, h]
  · simp

/-- The state a write transfer leaves (R62, R66, R68). -/
def State.afterWrite (off : Offset) (w : Word) (strb : Strobe) (s : State) : State :=
  match target off with
  | .reg .ctrl => if strb = 0b1111#4 then s.afterCtrl w else s
  | .reg r => if strb = 0b1111#4 then s.writeReg r w else s
  | .window X o => s.hostWriteWindow X o w strb
  | .reserved => s

/-- A write transfer always answers a next state (R64). -/
theorem hostWrite_eq (off : Offset) (w : Word) (strb : Strobe) (s : State) :
    hostWrite off w strb s = .next (s.afterWrite off w strb) := by
  unfold hostWrite State.afterWrite
  cases target off with
  | reg r =>
    cases r
    case ctrl =>
      by_cases h : strb = 0b1111#4
      · simp only [h, if_true]
        exact writeCtrl_eq w s
      · simp only [h, if_false]
    all_goals rfl
  | window X o => rfl
  | reserved => rfl

/-- The state an event leaves. -/
def State.afterEvent (e : Event) (s : State) : State :=
  match e with
  | .read off => s.hostRead off
  | .write off w strb => s.afterWrite off w strb
  | .engineInternal => s.internalStep
  | .engineComplete => if s.statusBUSY then complete (commandOutcome s.ctrlCMD s) s else s
  | .reset => s.resetEvent

/-- Every event answers a next state. -/
theorem handleEvent_eq (e : Event) (s : State) : handleEvent e s = .next (s.afterEvent e) := by
  cases e
  · rfl
  · exact hostWrite_eq _ _ _ _
  · rfl
  · exact engineComplete_eq s
  · rfl

/-- What a step can do: with no event left a running command completes; else the clock runs and the next event happens. -/
theorem step_eq (s : State) :
    step s = .next (match s.inputs with
      | [] => s.tick.afterEvent .engineComplete
      | e :: rest => (s.withInputs rest).tick.afterEvent e) := by
  unfold step advance
  cases s.inputs with
  | nil => exact engineComplete_eq _
  | cons e rest => exact handleEvent_eq _ _

/-- A step of a machine with no event left. -/
theorem step_nil {s : State} (h : s.inputs = []) : step s = .next (s.tick.afterEvent .engineComplete) := by
  rw [step_eq, h]

/-- A step of a machine whose next event is `e`. -/
theorem step_cons {s : State} {e : Event} {rest : List Event} (h : s.inputs = e :: rest) :
    step s = .next ((s.withInputs rest).tick.afterEvent e) := by
  rw [step_eq, h]

/-- One step of a run of the machine. -/
theorem run_succ {s t : State} (k : Nat) (h : step s = .next t) :
    Host.Core.run Sys2Proof.core (k + 1) s = Host.Core.run Sys2Proof.core k t := by
  have h' : Sys2Proof.core.step s = .next t := h
  rw [Host.Core.run.eq_2 Sys2Proof.core s k, h']

/-- The fields of a register write other than CTRL while BUSY = 1: LOCKERR or the STATUS bits alone. -/
theorem writeReg_busy (r : Reg) (w : Word) (s : State) (h : s.statusBUSY = true) :
    s.writeReg r w = s ∨ s.writeReg r w = s.lockError ∨ s.writeReg r w = s.writeStatus w := by
  cases r <;> simp [State.writeReg, State.lockedWrite, h]

/-- The address of an offset, bits 1:0 dropped (R63). -/
theorem and_mask_toNat (off : Offset) : (off &&& 0x7FFC#15).toNat = off.toNat / 4 * 4 := by
  have h : off &&& 0x7FFC#15 = (off >>> 2) <<< 2 := by
    apply BitVec.eq_of_getLsbD_eq
    intro i hi
    simp only [BitVec.getLsbD_and, BitVec.getLsbD_shiftLeft, BitVec.getLsbD_ushiftRight]
    interval_cases i <;> simp
  have hlt := off.isLt
  rw [h, BitVec.toNat_shiftLeft, BitVec.toNat_ushiftRight, Nat.shiftLeft_eq, Nat.shiftRight_eq_div_pow]
  omega

/-- Address decoding through the aligned address (R63, R35). -/
theorem target_eq (off : Offset) : target off = targetAt (off.toNat / 4 * 4) := by
  rw [target, and_mask_toNat]

/-- Registers and reserved offsets stand below 0x1000. -/
theorem regAt_ne_window (a : Nat) (X : Buf) (o : Nat) : regAt a ≠ .window X o := by
  unfold regAt
  repeat' split
  all_goals simp

/-- The aligned address of an offset that selects a window (R35, R62). -/
theorem target_window {off : Offset} {X : Buf} {o : Nat} (h : target off = .window X o) :
    o < 4096 ∧ o % 4 = 0 ∧ X.window + o = off.toNat / 4 * 4 := by
  rw [target_eq] at h
  unfold targetAt at h
  repeat' split at h
  · exact absurd h (regAt_ne_window _ _ _)
  all_goals
    cases h
    try simp only [Buf.window]
    try omega

end Sys2Proof.Machine
end

