-- ==== Sys2Proof/Laws/Command.lean ====
section
/-! SUPPORT. What the checks, the outcome and the completion of a command can do, and what one lane of a window write does:
cited instead of unfolding them. -/

namespace Sys2Proof.Machine

/-- The handle checks pass exactly when every needed handle is present (R116). -/
theorem checkHandles_none (op : ArithOp) (s : State) : checkHandles op s = none ↔ HandlesPresent op s := by
  constructor
  · intro h X hX
    unfold checkHandles at h
    repeat' split at h
    all_goals try contradiction
    cases X <;> simp_all
  · intro h
    unfold checkHandles
    have hb := h .base
    have he := h .exp
    have hm := h .mod
    have ho := h .out
    repeat' split
    all_goals simp_all

/-- The capacity check passes exactly when OUT_LEN is at least MOD_LEN (R117). -/
theorem checkCapacity_none (s : State) : checkCapacity s = none ↔ s.modLen.toNat ≤ s.outLen.toNat := by
  unfold checkCapacity
  split <;> rename_i h <;> rw [BitVec.lt_def] at h
  · exact ⟨fun e => by simp at e, fun e => absurd h (by omega)⟩
  · exact ⟨fun _ => by omega, fun _ => rfl⟩

/-- The length checks pass exactly when every needed operand fits its window (R119). -/
theorem checkLengths_none (op : ArithOp) (s : State) : checkLengths op s = none ↔ OperandsFit op s := by
  constructor
  · intro h X hne hX
    unfold checkLengths at h
    repeat' split at h
    all_goals try contradiction
    cases X <;> simp_all
  · intro h
    unfold checkLengths
    have hb := h .base
    have he := h .exp
    have hm := h .mod
    repeat' split
    all_goals cases op <;> simp_all [ArithOp.needs]
    all_goals omega

/-- The checks made before any byte is imported, together (R113, R118). -/
theorem checkArguments_none (op : ArithOp) (s : State) : checkArguments op s = none ↔
    HandlesPresent op s ∧ s.modLen.toNat ≤ s.outLen.toNat ∧ OperandsFit op s := by
  rw [← checkHandles_none, ← checkCapacity_none, ← checkLengths_none]
  simp [checkArguments, Option.or_eq_none_iff, and_assoc]

/-- The modulus checks pass exactly for a nonzero modulus, odd for MONTMUL (R120, R196). -/
theorem checkModulus_none (op : ArithOp) (m : Nat) :
    checkModulus op m = none ↔ m ≠ 0 ∧ (op = .montmul → m % 2 = 1) := by
  unfold checkModulus
  by_cases h0 : m = 0
  · simp [h0]
  by_cases h : op = .montmul ∧ m % 2 = 0
  · simp [h0, h]
  · simp only [h0, h, if_false, true_iff]
    refine ⟨h0, fun ho => ?_⟩
    have : ¬ m % 2 = 0 := fun e => h ⟨ho, e⟩
    omega

/-- A result is no longer than the modulus's bytes. -/
theorem result_length_le (op : ArithOp) (s : State) (hm : s.importValue .mod ≠ 0) (a e : Nat) :
    exportLength (compute op a e (s.importValue .mod)) ≤ s.modLen.toNat := by
  have h1 := importValue_lt s .mod
  have hL : 1 ≤ s.modLen.toNat := by
    by_contra h
    have h0 : s.modLen.toNat = 0 := by omega
    simp only [State.lenOf, h0] at h1
    omega
  exact exportLength_le hL (Nat.lt_trans (compute_lt op a e hm) h1)

/-- A failing check of the first group decides the outcome (R113). -/
theorem execute_argument_error {op : ArithOp} {s : State} {c : Cause} (h : checkArguments op s = some c) :
    execute op s = .error c := by
  simp [execute, h]

/-- The outcome of a command that passes every check is its exported result (R113). -/
theorem execute_write_of_checks {op : ArithOp} {s : State} (ha : checkArguments op s = none)
    (hm : checkModulus op (s.importValue .mod) = none) :
    execute op s = .write (exportBytes (compute op (s.importValue .base) (secondOperand op s) (s.importValue .mod))) := by
  have hc := ((checkArguments_none op s).1 ha).2.1
  have hf := result_length_le op s ((checkModulus_none _ _).1 hm).1 (s.importValue .base) (secondOperand op s)
  simp only [execute, ha, hm, exportResult]
  rw [if_neg]
  simp only [State.lenOf]
  omega

/-- Everything an outcome can be: the error of the first failing check, or the exported result when none fails (R113). -/
theorem execute_cases (op : ArithOp) (s : State) :
    (∃ c, checkArguments op s = some c ∧ execute op s = .error c) ∨
    (checkArguments op s = none ∧ ∃ c, checkModulus op (s.importValue .mod) = some c ∧ execute op s = .error c) ∨
    (checkArguments op s = none ∧ checkModulus op (s.importValue .mod) = none ∧ execute op s =
      .write (exportBytes (compute op (s.importValue .base) (secondOperand op s) (s.importValue .mod)))) := by
  cases ha : checkArguments op s with
  | some c => exact .inl ⟨c, rfl, execute_argument_error ha⟩
  | none =>
    cases hm : checkModulus op (s.importValue .mod) with
    | some c => exact .inr (.inl ⟨rfl, c, rfl, by simp [execute, ha, hm]⟩)
    | none => exact .inr (.inr ⟨rfl, rfl, execute_write_of_checks ha hm⟩)

/-- The first group of checks raises these causes only. -/
theorem checkArguments_cause {op : ArithOp} {s : State} {c : Cause} (h : checkArguments op s = some c) :
    c ∈ [.nullBase, .nullExp, .nullMod, .nullOut, .capLtModLen, .baseTooLong, .expTooLong, .modTooLong] := by
  unfold checkArguments checkHandles checkCapacity checkLengths at h
  repeat' split at h
  all_goals cases h
  all_goals decide

/-- The modulus checks raise these causes only. -/
theorem checkModulus_cause {op : ArithOp} {m : Nat} {c : Cause} (h : checkModulus op m = some c) :
    c = .zeroModulus ∨ (op = .montmul ∧ c = .evenModulus) := by
  unfold checkModulus at h
  split at h
  · exact .inl (by simpa using h.symm)
  · split at h
    · rename_i he
      exact .inr ⟨he.1, by simpa using h.symm⟩
    · simp at h

/-- A successful completion of a result-computing command, as a state (R124). -/
theorem complete_write (r : Nat) (s : State) : complete (.write (exportBytes r)) s = written r s := by
  simp [complete, completeWrite, written, State.finish, State.writeBytes, Cause.code, Cause.status, Cause.bits, Buf.window]

/-- An error completion, as a state (R124, R125). -/
theorem complete_error (c : Cause) (s : State) : complete (.error c) s = failed c.code c.bits s := rfl

/-- Every completion clears BUSY and sets DONE (R124). -/
theorem complete_busy (o : CmdOutcome) (s : State) :
    (complete o s).statusBUSY = false ∧ (complete o s).statusDONE = true := by
  cases o <;> exact ⟨rfl, rfl⟩

/-- What a byte reads as after a successful completion (R77). -/
theorem readByte_written {s : State} (hl : Config.legalMaxBytes s.maxBytes = true) {r : Nat}
    (hr : exportLength r ≤ s.maxBytes) (Y : Buf) (k : Nat) :
    (written r s).readByte Y k =
      if Y = .out ∧ k < exportLength r then (exportBytes r).getD k 0#8 else s.readByte Y k := by
  have h := readByte_writeBytes hl .out Y 0 k (exportBytes r) (by simpa using hr)
  simp only [Nat.zero_le, true_and, Nat.zero_add, length_exportBytes, Nat.sub_zero] at h
  exact h

/-- An outcome depends on the registers and buffers a command reads alone (R19). -/
theorem execute_congr {s t : State} (op : ArithOp) (h1 : t.maxBytes = s.maxBytes) (h2 : t.args = s.args)
    (h3 : t.baseLen = s.baseLen) (h4 : t.expLen = s.expLen) (h5 : t.modLen = s.modLen) (h6 : t.outLen = s.outLen)
    (h7 : t.mem = s.mem) (h8 : t.resets = s.resets) : execute op t = execute op s := by
  cases s
  cases t
  simp at *
  subst_vars
  rfl

/-- What a byte reads as after one lane of a window write (R62, R65, R67). -/
theorem readByte_writeLane {s : State} (hl : Config.legalMaxBytes s.maxBytes = true) (X Y : Buf) (o : Nat) (w : Word)
    (st : Strobe) (j k : Nat) :
    (State.writeLane X o w st s j).readByte Y k =
      if Y = X ∧ k = o + j ∧ st.getLsbD j = true ∧ k < s.maxBytes then lane w j else s.readByte Y k := by
  unfold State.writeLane
  by_cases h : st.getLsbD j = true ∧ o + j < s.maxBytes
  · rw [if_pos h, readByte_writeBytes hl X Y (o + j) k _ (by simp; omega)]
    by_cases h2 : Y = X ∧ k = o + j
    · obtain ⟨rfl, rfl⟩ := h2
      simp [h]
    · rw [if_neg, if_neg]
      · tauto
      · simp
        intro h3 h4
        have : k ≠ o + j := fun e => h2 ⟨h3, e⟩
        omega
  · rw [if_neg h, if_neg]
    rintro ⟨_, rfl, h3, h4⟩
    exact h ⟨h3, h4⟩

/-- A lane of a word built from four bytes (R62). -/
theorem lane_word (a b c d : Byte) (j : Nat) (hj : j < 4) :
    lane (d ++ c ++ b ++ a : Word) j = if j = 0 then a else if j = 1 then b else if j = 2 then c else d := by
  apply BitVec.eq_of_getLsbD_eq
  intro i hi
  simp only [lane, BitVec.getLsbD_extractLsb', BitVec.getLsbD_append]
  interval_cases j <;> interval_cases i <;> simp

/-- No offset below 0x1000 selects a window (R35). -/
theorem target_low {off : Offset} (h : off.toNat < 0x1000) (X : Buf) (o : Nat) : target off ≠ .window X o := by
  rw [target_eq]
  unfold targetAt
  rw [if_pos (by omega)]
  exact regAt_ne_window _ _ _

/-- The bits of the STATUS word (R26). -/
theorem statusWord_bits (s : State) (i : Nat) (hi : i < 32) : s.statusWord.getLsbD i =
    (if i = 0 then s.statusBUSY else if i = 1 then s.statusDONE else if i = 2 then s.statusLOCKERR
      else if i < 8 then false else if i < 16 then s.statusCODE.getLsbD (i - 8)
      else if i < 20 then s.statusCAUSE.getLsbD (i - 16) else false) := by
  simp only [State.statusWord, BitVec.getLsbD_append, BitVec.getLsbD_ofBool]
  interval_cases i <;> simp

end Sys2Proof.Machine
end

