-- ==== Sys2Proof/Laws/PerInstr.lean ====
section
/-! SUPPORT. The per-instruction family: the encoding of each command is its row of spec/opcode_table.json. -/

namespace Sys2Proof.Laws.EncodingMatchesTable

/-- The match word of a command's row in spec/opcode_table.json. -/
def tableMatch : Instr → Word
  | .modexp _ => 0x00000101#32
  | .modmul _ => 0x00000201#32
  | .modred _ => 0x00000301#32
  | .montmul _ => 0x00000401#32
  | .zeroize _ => 0x00000F01#32

/-- The command is well-formed; under the table's mask its word is its row's match word; bit 1 is IE; reserved bits are 0;
and the decoder reads it back (R91). -/
def Statement (i : Instr) : Prop :=
  i.wf = true ∧ encode i &&& 0x0000FF01#32 = tableMatch i ∧ (encode i).getLsbD 1 = i.ie ∧
    encode i &&& 0xFFFF00FC#32 = 0#32 ∧ decode (encode i) = .ok i

/-- MODEXP, CMD 0x01. -/
theorem modexp (ie : Bool) : Statement (.modexp ie) := by
  cases ie <;> exact ⟨by decide, by decide, by decide, by decide, by decide⟩

/-- MODMUL, CMD 0x02. -/
theorem modmul (ie : Bool) : Statement (.modmul ie) := by
  cases ie <;> exact ⟨by decide, by decide, by decide, by decide, by decide⟩

/-- MODRED, CMD 0x03. -/
theorem modred (ie : Bool) : Statement (.modred ie) := by
  cases ie <;> exact ⟨by decide, by decide, by decide, by decide, by decide⟩

/-- MONTMUL, CMD 0x04. -/
theorem montmul (ie : Bool) : Statement (.montmul ie) := by
  cases ie <;> exact ⟨by decide, by decide, by decide, by decide, by decide⟩

/-- ZEROIZE, CMD 0x0F. -/
theorem zeroize (ie : Bool) : Statement (.zeroize ie) := by
  cases ie <;> exact ⟨by decide, by decide, by decide, by decide, by decide⟩

end Sys2Proof.Laws.EncodingMatchesTable
end

