-- ==== Sys2Proof/Tests/Slice0.lean ====
section
/-! SUPPORT. Tests with expected values from the spec, and a witness for the hypotheses of each obligation. -/

open Sys2Proof Sys2Proof.Machine

namespace Sys2Proof.Tests

/-! ## Helpers -/

/-- An engine that runs the command `cmd` on one-byte operands, the output byte at the sentinel 0xA5 (95_test_vectors.md). -/
def running (cmd : BitVec 8) (a e m : Byte) : State :=
  { State.reset with
    statusBUSY := true, ctrlCMD := cmd, args := 0xF#4
    baseLen := 1#32, expLen := 1#32, modLen := 1#32, outLen := 1#32
    mem := [(0x1000, a), (0x2000, e), (0x3000, m), (0x4000, 0xA5#8)] }

/-- A two-byte modulus in place of the one-byte one. -/
def withWideModulus (m1 m0 : Byte) (s : State) : State :=
  { s with
    modLen := 2#32, outLen := 2#32
    mem := Memory.setBytes s.mem 0x3000 [m1, m0] }

/-- STATUS, OUT_LEN and the first two output bytes after a move. -/
def shown : Host.Outcome State Fault Refusal → Option (Word × Word × Byte × Byte)
  | .next t => some (t.statusWord, t.outLen, t.readByte .out 0, t.readByte .base 0)
  | .fault _ => none
  | .refused _ => none

/-- PRDATA after the events placed in `s` have all happened. -/
def readBack (s : State) : Option Word :=
  match Host.Core.run Sys2Proof.core s.inputs.length s with
  | .next t => some t.prdata
  | .fault _ => none
  | .refused _ => none

/-! ## Well-formedness: ill-formed terms are refused -/

/-- R8: MAX_BYTES is a multiple of 8 from 8 to 4096. -/
theorem test_legalMaxBytes :
    Config.legalMaxBytes 8 = true ∧ Config.legalMaxBytes 512 = true ∧ Config.legalMaxBytes 4096 = true ∧
    Config.legalMaxBytes 0 = false ∧ Config.legalMaxBytes 12 = false ∧ Config.legalMaxBytes 4104 = false := by decide

/-- R99: OPND does not name OUT. -/
theorem test_stmt_wf : Stmt.wf (.opnd .out [1#8]) = false ∧ Stmt.wf (.opnd .mod [1#8]) = true := by decide

/-- Every instruction is well-formed (R91, R94). -/
theorem test_instr_wf : Instr.wf (.modexp true) = true ∧ Instr.wf (.modmul false) = true ∧ Instr.wf (.modred true) = true ∧
    Instr.wf (.montmul false) = true ∧ Instr.wf (.zeroize true) = true := by decide

/-- Memory out of order, or with two entries for one address, is not canonical. -/
theorem test_memory_wf : ¬ Memory.wf [(2, 0#8), (1, 0#8)] ∧ ¬ Memory.wf [(1, 0#8), (1, 1#8)] ∧
    Memory.wf [(1, 0#8), (2, 0#8)] := by decide

/-! ## Decoding: words from the encodings of 30_encoding.md R91, R92, R100 -/

/-- CMD 0x01, with reserved bits 31:16 set, IE = 1. -/
theorem test_decode_modexp : decode 0b11111111111111110000000100000011#32 = .ok (.modexp true) := by decide

/-- CMD 0x02, with reserved bits 7:2 set, IE = 0. -/
theorem test_decode_modmul : decode 0b00000000000000000000001011111101#32 = .ok (.modmul false) := by decide

/-- CMD 0x03, IE = 1. -/
theorem test_decode_modred : decode 0b00000000000000000000001100000011#32 = .ok (.modred true) := by decide

/-- CMD 0x04 (R100). -/
theorem test_decode_montmul : decode 0xFFFF0401#32 = .ok (.montmul false) := by decide

/-- CMD 0x0F, IE = 0. -/
theorem test_decode_zeroize : decode 0b00000000000000000000111100000001#32 = .ok (.zeroize false) := by decide

/-- Neighbours of legal CMD values are illegal, and START = 0 is no command (R92, R100). -/
theorem test_decode_reserved :
    decode 0x00000001#32 = .error (.illegalCommand 0x00#8 false) ∧
    decode 0x00000501#32 = .error (.illegalCommand 0x05#8 false) ∧
    decode 0x00000E03#32 = .error (.illegalCommand 0x0E#8 true) ∧
    decode 0x0000FF01#32 = .error (.illegalCommand 0xFF#8 false) ∧
    decode 0x00000100#32 = .error .notACommand ∧ decodeTableWord 33 0x100000101 = none := by decide

/-! ## Instructions: vectors of 95_test_vectors.md section 3 -/

/-- V-MX-1: 5^3 mod 13 = 8. -/
theorem test_modexp_scenario :
    shown (exec (.modexp false) (running 0x01#8 0x05#8 0x03#8 0x0D#8)) = some (0x00000002#32, 1#32, 0x08#8, 0x05#8) := by decide

/-- V-MX-2: 2^8 mod 256 = 0, one zero byte, OUT_LEN 1 below the capacity 2. -/
theorem test_modexp_zero_result :
    shown (exec (.modexp false) (withWideModulus 0x01#8 0x00#8 (running 0x01#8 0x02#8 0x08#8 0x00#8))) =
      some (0x00000002#32, 1#32, 0x00#8, 0x02#8) := by decide

/-- V-MM-1: 10 * 11 mod 7 = 5. -/
theorem test_modmul :
    shown (exec (.modmul false) (running 0x02#8 0x0A#8 0x0B#8 0x07#8)) = some (0x00000002#32, 1#32, 0x05#8, 0x0A#8) := by decide

/-- V-MM-6: MODMUL needs EXP. -/
theorem test_modmul_null_exp :
    shown (exec (.modmul false) { running 0x02#8 0x03#8 0x05#8 0x07#8 with args := 0xD#4 }) =
      some (0x0003FF02#32, 1#32, 0xA5#8, 0x03#8) := by decide

/-- V-MR-6: MODRED does not check EXP_LEN. -/
theorem test_modred :
    shown (exec (.modred false) { running 0x03#8 0x0C#8 0x00#8 0x0D#8 with expLen := 0xFFFFFFFF#32 }) =
      some (0x00000002#32, 1#32, 0x0C#8, 0x0C#8) := by decide

/-- V-MX-30's inputs under MODRED: the capacity check comes before the length check (R113). -/
theorem test_modred_check_order :
    shown (exec (.modred false) { running 0x03#8 0x0C#8 0x00#8 0x0D#8 with modLen := 513#32, outLen := 512#32 }) =
      some (0x0006FE02#32, 512#32, 0xA5#8, 0x0C#8) := by decide

/-- V-MT-9: operands not below m are reduced, 9 * 5 * 9 mod 13 = 2. -/
theorem test_montmul :
    shown (exec (.montmul false) (running 0x04#8 0x64#8 0xC8#8 0x0D#8)) = some (0x00000002#32, 1#32, 0x02#8, 0x64#8) := by decide

/-- V-MT-7: an even modulus is refused. -/
theorem test_montmul_even :
    shown (exec (.montmul false) (running 0x04#8 0x01#8 0x01#8 0x0E#8)) = some (0x000BFF02#32, 1#32, 0xA5#8, 0x01#8) := by decide

/-- V-ZZ-1: ZEROIZE ignores ARGS and clears BASE and OUT; MAX_BYTES = 8 keeps the test small. -/
theorem test_zeroize :
    shown (exec (.zeroize false) { running 0x0F#8 0x01#8 0x04#8 0x05#8 with args := 0#4, outLen := 7#32, maxBytes := 8 }) =
      some (0x00000002#32, 7#32, 0x00#8, 0x00#8) := by decide

/-- R111: accepting ZEROIZE sets BUSY and clears DONE, CODE and CAUSE. -/
theorem test_accept_zeroize :
    shown (exec (.zeroize true) { running 0x0F#8 0x01#8 0x04#8 0x05#8 with
      statusBUSY := false, statusDONE := true, statusCODE := 0xFF#8, statusCAUSE := 10#4 }) =
      some (0x00000001#32, 1#32, 0xA5#8, 0x01#8) := by decide

/-- V-IL-2, V-IL-3: an illegal CMD completes with ILLEGAL_CMD. -/
theorem test_illegal :
    shown (engineComplete { running 0x05#8 0x01#8 0x04#8 0x05#8 with args := 0#4 }) = some (0x0001FF02#32, 1#32, 0xA5#8, 0x01#8) ∧
    shown (engineComplete (running 0xFF#8 0x01#8 0x04#8 0x05#8)) = some (0x0001FF02#32, 1#32, 0xA5#8, 0x01#8) := by decide

/-! ## The step -/

/-- A placed MODEXP word runs to its completion at the very next step. -/
theorem test_step_placed_modexp :
    step (State.reset.withFetchWord 32 0x00000101) = exec (.modexp false) (State.reset.accept 0x01#8 false).tick := by rfl

/-- From reset a placed command's step answers a next state with DONE = 1 and NULL_BASE (R266). -/
theorem test_step_after_reset :
    ∃ t, step (State.reset.withFetchWord 32 0x00000101) = .next t ∧ t.statusWord = 0x0002FF02#32 := ⟨_, rfl, by decide⟩

/-- R173: n0' and mu of a running command do not stand after its completion: each register is the free value of that draw. -/
theorem test_discard :
    let s := internalSteps 4 (running 0x01#8 5#8 3#8 13#8)
    (complete (execute .modexp s) s).datapath = discardedDatapath s.discards := by rfl

/-- 10_state.md R26, 20_memory.md R69: STATUS read while BUSY = 1 with LOCKERR = 1, and PERF_CYCLES read at its offset. -/
theorem test_status_and_perf_reads :
    { running 0x01#8 5#8 3#8 13#8 with statusLOCKERR := true }.readWord 0x014#15 = 0x00000005#32 ∧
    { running 0x01#8 5#8 3#8 13#8 with perfCycles := 77#32 }.readWord 0x030#15 = 77#32 := by decide

/-! ## The port: vectors of 95_test_vectors.md section 4 -/

/-- V-BUS-1: strobes 0b0101 write bytes 0 and 2 only. -/
theorem test_bus_strobes :
    readBack { State.reset with
      mem := [(0x1000, 0xA5#8), (0x1001, 0xA5#8), (0x1002, 0xA5#8), (0x1003, 0xA5#8)]
      inputs := [.write 0x1000#15 0x11223344#32 0x5#4, .read 0x1000#15] } = some 0xA522A544#32 := by decide

/-- V-BUS-2: PADDR[1:0] is ignored. -/
theorem test_bus_unaligned :
    readBack { State.reset with inputs := [.write 0x1002#15 0xDDCCBBAA#32 0xF#4, .read 0x1003#15] } = some 0xDDCCBBAA#32 := by
  decide

/-- V-BUS-5: window bytes at or above MAX_BYTES are not backed. -/
theorem test_bus_unbacked :
    readBack { State.reset with inputs := [.write 0x1200#15 0x12345678#32 0xF#4, .read 0x1200#15] } = some 0#32 := by decide

/-- V-BUS-7: a CTRL write without START stores CMD and IE. -/
theorem test_bus_ctrl :
    readBack { State.reset with inputs := [.write 0x0010#15 0xFFFFFF02#32 0xF#4, .read 0x0010#15] } = some 0x0000FF02#32 := by
  decide

/-- V-BUS-10: a locked write while BUSY = 1 sets LOCKERR, and the window reads 0. -/
theorem test_bus_locked :
    readBack { running 0x01#8 2#8 3#8 5#8 with inputs := [.write 0x0028#15 2#32 0xF#4, .read 0x0014#15] } = some 5#32 ∧
    readBack { running 0x01#8 2#8 3#8 5#8 with inputs := [.read 0x3000#15] } = some 0#32 := by decide

/-- 30_encoding.md R99: the transfers of OPND and RUN, as program P1's encoding gives them. -/
theorem test_host_program :
    encodeProgram [.opnd .mod [0x0D#8], .run (.modexp true), .wait, .ack] =
      [.write 0x3000#15 0x0000000D#32 0xF#4, .write 0x0028#15 1#32 0xF#4, .write 0x0010#15 0x00000103#32 0xF#4,
       .read 0x0014#15, .write 0x0014#15 6#32 0xF#4] := by decide

/-! ## The datapath: worked examples of 42_datapath.md R168, R179 and 41_modexp.md R152, R153 -/

/-- R179: n0' for m = 13 and m = 3233. -/
theorem test_montConstant : montConstant 13 = 0xB13B13B13B13B13B ∧ montConstant 3233 = 0x85BDA4F0669F289F := by
  decide +kernel

/-- R168, R179: mu for m = 13, and BarrettReduce(200, 13). -/
theorem test_barrett : barrettMu 13 = 0x13B13B13B13B13B13B13B13B13B13B13 ∧ barrettQuotient 200 13 = 15 ∧
    barrettReduce 200 13 = 5 := by decide +kernel

/-- R179: R mod 13 = 3 and ModInv(R, 13) = 9; R mod 3233 = 2029. -/
theorem test_radix : reduceLong (montRadix 13) 13 = 3 ∧ modInv (montRadix 13) 13 = 9 ∧
    reduceLong (montRadix 3233) 3233 = 2029 := by decide +kernel

/-- R152: the trace of 5^3 mod 13 in the Montgomery domain. -/
theorem test_trace_odd : montMul 5 9 13 = 2 ∧ montMul 3 3 13 = 3 ∧ montMul 3 2 13 = 2 ∧ montMul 2 2 13 = 10 ∧
    montMul 10 2 13 = 11 ∧ montMul 11 1 13 = 8 ∧ modexpOdd .leftToRight 5 3 13 = 8 := by decide +kernel

/-- R152: the same trace on the machine's working registers: rm = 3, r2 = 9, xt = 2, then 2, 11 and 8 in the accumulator. -/
theorem test_trace_registers :
    let s := running 0x01#8 5#8 3#8 13#8
    ((internalSteps 1 s).datapath.rm, (internalSteps 1 s).datapath.r2, (internalSteps 1 s).datapath.xt,
      (internalSteps 1 s).datapath.i) = (3, 9, 2, 1) ∧
    ((internalSteps 2 s).datapath.acc, (internalSteps 3 s).datapath.acc, (internalSteps 4 s).datapath.acc) = (2, 11, 8) ∧
    (internalSteps 4 s).datapath.stage = .done := by decide +kernel

/-- R153: the trace of 2^8 mod 256 on the Barrett pipeline. -/
theorem test_trace_even : barrettReduce (1 * 2) 256 = 2 ∧ barrettReduce (2 * 2) 256 = 4 ∧ barrettReduce (4 * 4) 256 = 16 ∧
    barrettReduce (16 * 16) 256 = 0 ∧ modexpEven .leftToRight 2 8 256 = 0 := by decide +kernel

/-! ## Witnesses: states and operands that meet an obligation's hypotheses, clause by clause -/

/-- An idle engine with a host event to come. -/
def idleWith (e : Event) : State := { State.reset with inputs := [e] }

/-- A running engine with an event to come. -/
def runningWith (e : Event) : State := { running 0x01#8 5#8 3#8 13#8 with inputs := [e] }

/-- Every handle of an engine built by `running` is present, for every command. -/
theorem witness_HandlesPresent (op : ArithOp) (cmd : BitVec 8) (a e m : Byte) : HandlesPresent op (running cmd a e m) := by
  intro X _
  cases X <;> simp [State.present, running]

/-- Every operand of an engine built by `running` fits its window. -/
theorem witness_OperandsFit (op : ArithOp) (cmd : BitVec 8) (a e m : Byte) : OperandsFit op (running cmd a e m) := by
  intro X _ _
  have h : (running cmd a e m).lenOf X = 1 := by cases X <;> rfl
  rw [h]
  show 1 ≤ 512
  omega

/-- Every result-computing command runs normally on 5, 3 and 13. -/
theorem witness_NormalRun (op : ArithOp) (cmd : BitVec 8) : NormalRun op (running cmd 5#8 3#8 13#8) :=
  ⟨rfl, witness_HandlesPresent op _ _ _ _, show 1 ≤ 1 by omega, witness_OperandsFit op _ _ _ _,
    show (running 0x01#8 5#8 3#8 13#8).importValue .mod ≠ 0 by decide,
    fun _ => show (running 0x01#8 5#8 3#8 13#8).importValue .mod % 2 = 1 by decide⟩

/-- A running engine meets the invariant. -/
theorem witness_Inv : (running 0x01#8 5#8 3#8 13#8).Inv :=
  ⟨by decide, by decide, by
    intro c hc
    simp only [running, List.mem_cons, List.not_mem_nil, or_false] at hc
    rcases hc with rfl | rfl | rfl | rfl
    · exact ⟨.base, by decide, by decide⟩
    · exact ⟨.exp, by decide, by decide⟩
    · exact ⟨.mod, by decide, by decide⟩
    · exact ⟨.out, by decide, by decide⟩,
    fun _ => by decide, .none, by decide, by decide, by decide⟩

theorem witness_SpecExampleWordsDecode : State.reset.statusBUSY = false ∧
    { State.reset with statusDONE := true, statusCODE := 0xFF#8, statusCAUSE := 10#4 }.statusWord = 0x000AFF02#32 ∧
    target 0x014#15 = .reg .status ∧ target 0x017#15 = .reg .status := by decide

theorem witness_CommandWordsDecodeExactly : decode 0xFFFF04FF#32 = .ok (.montmul true) := by decide

theorem witness_EveryCmdValueIsLegalOrIllegal :
    (fieldSTART 0x00000F01#32 = true ∧ fieldCMD 0x00000F01#32 ∈ legalOpcodes) ∧
    (fieldSTART 0x00001001#32 = true ∧ fieldCMD 0x00001001#32 ∉ legalOpcodes) ∧
    (fieldSTART 0x00000001#32 = true ∧ fieldCMD 0x00000001#32 ∉ legalOpcodes) ∧ fieldSTART 0xFFFFFFFE#32 = false := by decide

theorem witness_StepRunsTheDecodedCommand :
    ((running 0x01#8 5#8 3#8 13#8).statusBUSY = true ∧ (running 0x01#8 5#8 3#8 13#8).inputs = [] ∧
      decode (running 0x01#8 5#8 3#8 13#8).runningWord = .ok (.modexp false)) ∧
    ((runningWith .engineComplete).statusBUSY = true ∧ (runningWith .engineComplete).inputs = .engineComplete :: [] ∧
      decode (runningWith .engineComplete).runningWord = .ok (.modexp false)) ∧
    ((idleWith (.write 0x013#15 0x00000F03#32 0xF#4)).statusBUSY = false ∧ target 0x013#15 = .reg .ctrl ∧
      decode 0x00000F03#32 = .ok (.zeroize true)) := by decide

theorem witness_InternalStepsAreInvisible : (runningWith .engineInternal).inputs = .engineInternal :: [] ∧
    (idleWith .engineInternal).inputs = .engineInternal :: [] := by decide

theorem witness_CtrlWriteWhileIdle : State.reset.statusBUSY = false ∧ target 0x010#15 = .reg .ctrl ∧
    target 0x013#15 = .reg .ctrl := by decide

theorem witness_CommandAcceptance : State.reset.statusBUSY = false := by decide

theorem witness_PhaseChangesOnlyAtItsEvents :
    (∃ t, handleEvent (.write 0x010#15 0x00000F01#32 0xF#4) State.reset = .next t ∧
      State.reset.phase = .idle ∧ t.phase = .run) ∧
    (∃ t, handleEvent .engineComplete (running 0x01#8 5#8 3#8 13#8) = .next t ∧
      (running 0x01#8 5#8 3#8 13#8).phase = .run ∧ t.phase = .idle) ∧
    (∃ t, handleEvent .reset (running 0x01#8 5#8 3#8 13#8) = .next t ∧
      (running 0x01#8 5#8 3#8 13#8).phase = .run ∧ t.phase = .idle) ∧
    (∃ t, handleEvent .engineComplete (running 0x00#8 5#8 3#8 13#8) = .next t ∧
      (running 0x00#8 5#8 3#8 13#8).phase = .run ∧ t.phase = .idle) :=
  ⟨⟨_, rfl, by decide, by decide⟩, ⟨_, rfl, by decide, by decide⟩, ⟨_, rfl, by decide, by decide⟩,
    ⟨_, rfl, by decide, by decide⟩⟩

/-- Each way to set LOCKERR, and a write that does not. -/
theorem witness_LockErrorSetExactlyByDroppedWrites : target 0x014#15 = .reg .status ∧ target 0x017#15 = .reg .status ∧
    (∃ t, handleEvent (.write 0x010#15 1#32 0xF#4) (running 0x01#8 5#8 3#8 13#8) = .next t ∧ t.statusLOCKERR = true) ∧
    (∃ t, handleEvent (.write 0x02C#15 1#32 0xF#4) (running 0x01#8 5#8 3#8 13#8) = .next t ∧ t.statusLOCKERR = true) ∧
    (∃ t, handleEvent (.write 0x4FFC#15 1#32 0x0#4) (running 0x01#8 5#8 3#8 13#8) = .next t ∧ t.statusLOCKERR = true) ∧
    (∃ t, handleEvent (.write 0x02C#15 1#32 0x7#4) (running 0x01#8 5#8 3#8 13#8) = .next t ∧ t.statusLOCKERR = false) ∧
    (∃ t, handleEvent (.write 0x02C#15 1#32 0xF#4) State.reset = .next t ∧ t.statusLOCKERR = false) :=
  ⟨by decide, by decide, ⟨_, rfl, by decide⟩, ⟨_, rfl, by decide⟩, ⟨_, rfl, by decide⟩, ⟨_, rfl, by decide⟩,
    ⟨_, rfl, by decide⟩⟩

theorem witness_LockWhileBusy : (running 0x01#8 5#8 3#8 13#8).statusBUSY = true ∧
    target 0x1000#15 = .window .base 0 ∧ target 0x4FFF#15 = .window .out 4092 ∧
    target 0x018#15 = .reg .args ∧ target 0x020#15 = .reg .baseLen ∧ target 0x024#15 = .reg .expLen ∧
    target 0x028#15 = .reg .modLen ∧ target 0x02C#15 = .reg .outLen ∧
    target 0x010#15 = .reg .ctrl ∧ target 0x014#15 = .reg .status ∧
    target 0x00C#15 = .reserved ∧ target 0x0FFF#15 = .reserved ∧ target 0x5000#15 = .reserved ∧
    target 0x7FFF#15 = .reserved ∧ target 0x000#15 = .reg .id ∧ target 0x004#15 = .reg .version ∧
    target 0x008#15 = .reg .caps ∧ target 0x030#15 = .reg .perfCycles := by decide

theorem witness_LockWhileBusy_status : (running 0x01#8 5#8 3#8 13#8).Inv ∧ (running 0x01#8 5#8 3#8 13#8).statusBUSY = true ∧
    target 0x014#15 = .reg .status := ⟨witness_Inv, by decide, by decide⟩

theorem witness_RunningCommandInputsAreLocked :
    ∃ t, handleEvent (.write 0x1000#15 7#32 0xF#4) (running 0x01#8 5#8 3#8 13#8) = .next t ∧
      (running 0x01#8 5#8 3#8 13#8).statusBUSY = true ∧ t.statusBUSY = true := ⟨_, rfl, by decide, by decide⟩

theorem witness_PartialStrobeRegisterWriteIgnored : (0x010#15).toNat < 0x1000 ∧ (0x0FFF#15).toNat < 0x1000 ∧
    0x7#4 ≠ 0xF#4 ∧ 0x0#4 ≠ 0xF#4 := by decide

theorem witness_WindowTransferMovesBytes : State.reset.statusBUSY = false ∧
    Config.legalMaxBytes State.reset.maxBytes = true ∧ target 0x1000#15 = .window .base 0 ∧
    target 0x11FC#15 = .window .base 508 ∧ target 0x4FFF#15 = .window .out 4092 := by decide

theorem witness_UnbackedWindowOffsets : target 0x1200#15 = .window .base 512 ∧ State.reset.maxBytes ≤ 512 ∧
    target 0x2FFC#15 = .window .exp 4092 ∧ State.reset.statusBUSY = false ∧
    (running 0x01#8 5#8 3#8 13#8).maxBytes ≤ 512 ∧ (running 0x01#8 5#8 3#8 13#8).statusBUSY = true := by decide

theorem witness_ReservedSpaceReadsZeroIgnoresWrites : (0x00F#15).toNat / 4 * 4 = 0x00C ∧ (0x01C#15).toNat / 4 * 4 = 0x01C ∧
    (0x034 ≤ (0x034#15).toNat ∧ (0x034#15).toNat < 0x1000) ∧ (0x034 ≤ (0xFFF#15).toNat ∧ (0xFFF#15).toNat < 0x1000) ∧
    0x5000 ≤ (0x5000#15).toNat ∧ 0x5000 ≤ (0x7FFF#15).toNat ∧ target 0x010#15 = .reg .ctrl ∧
    target 0x014#15 = .reg .status ∧ target 0x018#15 = .reg .args := by decide

theorem witness_IdentificationRegisters : Config.legalMaxBytes State.reset.maxBytes = true ∧ State.reset.maxBytes = 512 ∧
    Config.legalMaxBytes { State.reset with maxBytes := 4096 }.maxBytes = true ∧ 15 < 16 ∧
    0x008#15 ∈ [0x000#15, 0x004#15, 0x008#15] ∧ 0x10 ≤ (0x10#8).toNat ∧ 0x10 ≤ (0xFF#8).toNat := by decide

theorem witness_RegistersReadBack : State.reset.statusBUSY = false ∧ (0xFFFFFFFE#32).getLsbD 0 = false := by decide

theorem witness_ReadsHaveNoSideEffect :
    (runningWith (.read 0x014#15)).inputs = .read 0x014#15 :: [] ∧ target 0x014#15 ≠ .reg .perfCycles ∧
    (∀ e ∈ [Event.engineInternal, .read 0x000#15], e = .engineInternal ∨ ∃ o, e = .read o) ∧
    (∃ t u, Host.Core.run Sys2Proof.core 1
        { State.reset with inputs := [.read 0x014#15, .engineInternal, .read 0x000#15, .read 0x014#15] } = .next t ∧
      Host.Core.run Sys2Proof.core 4
        { State.reset with inputs := [.read 0x014#15, .engineInternal, .read 0x000#15, .read 0x014#15] } = .next u) :=
  ⟨by decide, by decide, by simp, _, _, rfl, rfl⟩

theorem witness_PerfCyclesCountsWhileBusy_read : (0x030#15).toNat / 4 * 4 = 0x030 ∧ (0x033#15).toNat / 4 * 4 = 0x030 := by
  decide

theorem witness_PerfCyclesCountsWhileBusy :
    (∃ t, step (running 0x01#8 5#8 3#8 13#8) = .next t ∧ (∀ rest, (running 0x01#8 5#8 3#8 13#8).inputs ≠ .reset :: rest) ∧
      (running 0x01#8 5#8 3#8 13#8).statusBUSY = true) ∧
    (∃ t, step State.reset = .next t ∧ (∀ rest, State.reset.inputs ≠ .reset :: rest) ∧ t.statusBUSY = false) ∧
    (∃ t, step (idleWith (.write 0x010#15 0x00000F01#32 0xF#4)) = .next t ∧
      (∀ rest, (idleWith (.write 0x010#15 0x00000F01#32 0xF#4)).inputs ≠ .reset :: rest) ∧ t.statusBUSY = true) :=
  ⟨⟨_, rfl, by simp [running, State.reset], by decide⟩, ⟨_, rfl, by simp [State.reset], by decide⟩,
    ⟨_, rfl, by simp [idleWith], by decide⟩⟩

/-- Length 0, and the operand [0, 3] beside [3]. -/
theorem witness_ImportIsBigEndian : State.reset.lenOf .base = 0 ∧
    { State.reset with baseLen := 2#32, mem := [(0x1000, 0#8), (0x1001, 3#8)] }.lenOf .base =
      1 + (running 0x01#8 3#8 0#8 0#8).lenOf .base ∧
    { State.reset with baseLen := 2#32, mem := [(0x1000, 0#8), (0x1001, 3#8)] }.readByte .base 0 = 0#8 ∧
    { State.reset with baseLen := 2#32, mem := [(0x1000, 0#8), (0x1001, 3#8)] }.readByte .base 1 =
      (running 0x01#8 3#8 0#8 0#8).readByte .base 0 := by decide

theorem witness_ExportIsCanonical : exportLength 0 = 1 ∧ exportLength 255 = 1 ∧ exportLength 256 = 2 := by decide

theorem witness_ImportInvertsExport : Config.legalMaxBytes State.reset.maxBytes = true ∧
    510 + exportLength 256 ≤ State.reset.maxBytes ∧
    { State.reset with modLen := 512#32 }.lenOf .mod = 510 + exportLength 256 := by decide

theorem witness_ModexpResult : NormalRun .modexp (running 0x01#8 5#8 3#8 13#8) := witness_NormalRun _ _

/-- Exponent 0, modulus 1, and base 0 with exponent 3. -/
theorem witness_ModexpCornerCases :
    (NormalRun .modexp (running 0x01#8 5#8 0#8 13#8) ∧ (running 0x01#8 5#8 0#8 13#8).importValue .exp = 0) ∧
    (NormalRun .modexp (running 0x01#8 5#8 3#8 1#8) ∧ (running 0x01#8 5#8 3#8 1#8).importValue .mod = 1) ∧
    (NormalRun .modexp (running 0x01#8 0#8 3#8 13#8) ∧ (running 0x01#8 0#8 3#8 13#8).importValue .base = 0 ∧
      (running 0x01#8 0#8 3#8 13#8).importValue .exp ≠ 0) := by
  refine ⟨⟨⟨rfl, witness_HandlesPresent _ _ _ _ _, by decide, witness_OperandsFit _ _ _ _ _, by decide, by decide⟩, by decide⟩,
    ⟨⟨rfl, witness_HandlesPresent _ _ _ _ _, by decide, witness_OperandsFit _ _ _ _ _, by decide, by decide⟩, by decide⟩,
    ⟨⟨rfl, witness_HandlesPresent _ _ _ _ _, by decide, witness_OperandsFit _ _ _ _ _, by decide, by decide⟩, by decide,
      by decide⟩⟩

theorem witness_ModmulResult : NormalRun .modmul (running 0x02#8 5#8 3#8 13#8) := witness_NormalRun _ _

/-- MODRED with EXP_V = 0 and EXP_LEN above MAX_BYTES. -/
theorem witness_ModredResult :
    let s := { running 0x03#8 12#8 0#8 13#8 with args := 0xD#4, expLen := 0xFFFFFFFF#32 }
    s.statusBUSY = true ∧ s.present .base = true ∧ s.present .mod = true ∧ s.present .out = true ∧
    s.modLen.toNat ≤ s.outLen.toNat ∧ s.baseLen.toNat ≤ s.maxBytes ∧ s.modLen.toNat ≤ s.maxBytes ∧
    s.importValue .mod ≠ 0 := by decide

theorem witness_MontmulResult : NormalRun .montmul (running 0x04#8 5#8 3#8 13#8) := witness_NormalRun _ _

theorem witness_ModInvIsTheInverse : (1 ≤ 10 ∧ Nat.gcd 3 10 = 1 ∧ 7 < 10 ∧ 3 * 7 % 10 = 1 % 10) ∧
    (1 ≤ 1 ∧ Nat.gcd 0 1 = 1 ∧ 0 < 1 ∧ 0 * 0 % 1 = 1 % 1) := by decide

theorem witness_ZeroizeClearsTheBuffers : (running 0x0F#8 5#8 3#8 13#8).statusBUSY = true := by decide

theorem witness_IllegalCommandFails : (0x00000001#32).getLsbD 0 = true ∧
    (0x00000001#32).extractLsb' 8 8 ∉ legalOpcodes ∧ State.reset.statusBUSY = false ∧
    (running 0x00#8 5#8 3#8 13#8).statusBUSY = true ∧ (running 0x00#8 5#8 3#8 13#8).ctrlCMD = (0x00000001#32).extractLsb' 8 8 := by
  decide

/-- An absent BASE, EXP, MOD and OUT in turn. -/
theorem witness_AbsentHandleFails :
    let r := running 0x01#8 5#8 3#8 13#8
    r.statusBUSY = true ∧ { r with args := 0xE#4 }.present .base = false ∧
    ({ r with args := 0xD#4 }.present .base = true ∧ ArithOp.modexp.needs .exp = true ∧
      { r with args := 0xD#4 }.present .exp = false) ∧
    ({ r with args := 0xB#4 }.present .base = true ∧ { r with args := 0xB#4 }.present .exp = true ∧
      { r with args := 0xB#4 }.present .mod = false) ∧
    ({ r with args := 0x5#4 }.present .base = true ∧ ArithOp.modred.needs .exp = false ∧
      { r with args := 0x5#4 }.present .mod = true ∧ { r with args := 0x5#4 }.present .out = false) := by decide

theorem witness_CapacityBelowModulusLengthFails :
    ({ running 0x01#8 5#8 3#8 13#8 with outLen := 0#32 }).statusBUSY = true ∧
    HandlesPresent .modexp { running 0x01#8 5#8 3#8 13#8 with outLen := 0#32 } ∧
    ({ running 0x01#8 5#8 3#8 13#8 with outLen := 0#32 }).outLen.toNat <
      ({ running 0x01#8 5#8 3#8 13#8 with outLen := 0#32 }).modLen.toNat ∧
    ¬ HandlesPresent .modexp { running 0x01#8 5#8 3#8 13#8 with args := 0x7#4 } ∧
    (running 0x01#8 5#8 3#8 13#8).modLen.toNat ≤ (running 0x01#8 5#8 3#8 13#8).outLen.toNat :=
  ⟨by decide, by intro X _; cases X <;> decide, by decide, fun h => by simpa [State.present] using h .out (by decide), by decide⟩

/-- Each operand one byte too long in turn, the others at MAX_BYTES. -/
theorem witness_OverlongOperandFails :
    let r := { running 0x01#8 5#8 3#8 13#8 with baseLen := 512#32, expLen := 512#32, modLen := 512#32, outLen := 513#32 }
    HandlesPresent .modexp r ∧ r.statusBUSY = true ∧ r.modLen.toNat ≤ r.outLen.toNat ∧
    r.maxBytes < { r with baseLen := 513#32 }.baseLen.toNat ∧
    (r.baseLen.toNat ≤ r.maxBytes ∧ r.maxBytes < { r with expLen := 513#32 }.expLen.toNat) ∧
    (r.expLen.toNat ≤ r.maxBytes ∧ r.maxBytes < { r with modLen := 513#32 }.modLen.toNat ∧
      { r with modLen := 513#32 }.modLen.toNat ≤ r.outLen.toNat) ∧ OperandsFit .modexp r :=
  ⟨by intro X _; cases X <;> decide, by decide, by decide, by decide, by decide, by decide, by
    intro X h _
    cases X <;> first | decide | contradiction⟩

theorem witness_ZeroModulusFails :
    HandlesPresent .modexp (running 0x01#8 5#8 3#8 0#8) ∧ OperandsFit .modexp (running 0x01#8 5#8 3#8 0#8) ∧
    (running 0x01#8 5#8 3#8 0#8).statusBUSY = true ∧
    (running 0x01#8 5#8 3#8 0#8).modLen.toNat ≤ (running 0x01#8 5#8 3#8 0#8).outLen.toNat ∧
    (running 0x01#8 5#8 3#8 0#8).importValue .mod = 0 ∧ State.reset.importValue .mod = 0 ∧
    HandlesPresent .modred { running 0x03#8 5#8 3#8 0#8 with outLen := 0#32 } ∧
    { running 0x03#8 5#8 3#8 0#8 with outLen := 0#32 }.outLen.toNat <
      { running 0x03#8 5#8 3#8 0#8 with outLen := 0#32 }.modLen.toNat ∧
    { running 0x03#8 5#8 3#8 0#8 with outLen := 0#32 }.importValue .mod = 0 :=
  ⟨witness_HandlesPresent _ _ _ _ _, witness_OperandsFit _ _ _ _ _, by decide, by decide, by decide, by decide,
    by intro X _; cases X <;> decide, by decide, by decide⟩

theorem witness_MontmulRefusesEvenModulus :
    HandlesPresent .montmul (running 0x04#8 5#8 3#8 14#8) ∧ OperandsFit .montmul (running 0x04#8 5#8 3#8 14#8) ∧
    (running 0x04#8 5#8 3#8 14#8).statusBUSY = true ∧
    (running 0x04#8 5#8 3#8 14#8).modLen.toNat ≤ (running 0x04#8 5#8 3#8 14#8).outLen.toNat ∧
    (running 0x04#8 5#8 3#8 14#8).importValue .mod ≠ 0 ∧ (running 0x04#8 5#8 3#8 14#8).importValue .mod % 2 = 0 ∧
    ArithOp.modexp ≠ .montmul :=
  ⟨witness_HandlesPresent _ _ _ _ _, witness_OperandsFit _ _ _ _ _, by decide, by decide, by decide, by decide, by decide⟩

theorem witness_ErrorCompletionIsPrecise :
    ∃ t, exec (.montmul true) (running 0x04#8 5#8 3#8 14#8) = .next t ∧
      (running 0x04#8 5#8 3#8 14#8).statusBUSY = true ∧ t.statusCODE ≠ 0x00#8 := ⟨_, rfl, by decide, by decide⟩

theorem witness_ErrorCompletionIsPrecise_illegal :
    ∃ t, engineComplete (running 0x10#8 5#8 3#8 14#8) = .next t ∧
      (running 0x10#8 5#8 3#8 14#8).statusBUSY = true ∧ t.statusCODE ≠ 0x00#8 := ⟨_, rfl, by decide, by decide⟩

theorem witness_ResultAlwaysFits : execute .modexp (running 0x01#8 5#8 3#8 13#8) = .write [0x08#8] := by decide

theorem witness_CauseTable :
    (∃ t, exec (.zeroize false) (running 0x0F#8 5#8 3#8 13#8) = .next t ∧ (running 0x0F#8 5#8 3#8 13#8).statusBUSY = true) ∧
    (∃ t, execIllegal 0x05#8 true (running 0x05#8 5#8 3#8 13#8) = .next t ∧
      (running 0x05#8 5#8 3#8 13#8).statusBUSY = true) := ⟨⟨_, rfl, by decide⟩, ⟨_, rfl, by decide⟩⟩

/-- Two states that differ in IE, LOCKERR, the output byte and a byte at index L. -/
theorem witness_OutcomeDependsOnInputsAlone :
    let s := running 0x01#8 5#8 3#8 13#8
    let t := { s with ctrlIE := true, statusLOCKERR := true, mem := Memory.setBytes (Memory.set s.mem 0x4000 0#8) 0x1001 [9#8] }
    s.statusBUSY = true ∧ t.statusBUSY = true ∧ s.maxBytes = t.maxBytes ∧ s.args = t.args ∧ s.baseLen = t.baseLen ∧
    s.expLen = t.expLen ∧ s.modLen = t.modLen ∧ s.outLen = t.outLen ∧ s.ctrlCMD = t.ctrlCMD ∧ s ≠ t ∧
    ∀ X k, X ≠ .out → k < s.lenOf X → s.readByte X k = t.readByte X k := by
  refine ⟨rfl, rfl, rfl, rfl, rfl, rfl, rfl, rfl, rfl, by decide, ?_⟩
  intro X k _ hk
  have hk0 : k = 0 := by cases X <;> simpa [State.lenOf, running] using hk
  subst hk0
  cases X <;> first | decide | contradiction

theorem witness_ArithmeticCommandFrame :
    ∃ t, exec (ArithOp.modexp.instr false) (running 0x01#8 5#8 3#8 13#8) = .next t ∧
      (running 0x01#8 5#8 3#8 13#8).statusBUSY = true ∧
      Config.legalMaxBytes (running 0x01#8 5#8 3#8 13#8).maxBytes = true ∧ t.statusCODE = 0x00#8 :=
  ⟨_, rfl, by decide, by decide, by decide⟩

theorem witness_OutputBytesAreExported : NormalRun .modmul (running 0x02#8 5#8 3#8 13#8) ∧
    Config.legalMaxBytes (running 0x02#8 5#8 3#8 13#8).maxBytes = true := ⟨witness_NormalRun _ _, by decide⟩

theorem witness_EveryCompletionEndsTheCommand : (running 0x03#8 5#8 3#8 13#8).statusBUSY = true := by decide

theorem witness_IrqIsALevel :
    (∃ t, exec (.zeroize true) (running 0x0F#8 5#8 3#8 13#8) = .next t ∧ (running 0x0F#8 5#8 3#8 13#8).statusBUSY = true) ∧
    (∃ t, exec (.zeroize true) State.reset = .next t ∧ State.reset.statusBUSY = false) ∧
    (∃ t, hostWrite 0x010#15 0x00000F02#32 0xF#4 State.reset = .next t ∧ target 0x010#15 = .reg .ctrl ∧
      (0x00000F02#32).getLsbD 0 = false) ∧
    (∃ t, hostWrite 0x014#15 0x00000002#32 0xF#4 State.reset = .next t ∧ target 0x014#15 = .reg .status ∧
      (0x00000002#32).getLsbD 1 = true) :=
  ⟨⟨_, rfl, by decide⟩, ⟨_, rfl, by decide⟩, ⟨_, rfl, by decide, by decide⟩, ⟨_, rfl, by decide, by decide⟩⟩

theorem witness_EveryStepKeepsTheInvariant : ∃ s t : State, s.Inv ∧ step s = .next t ∧ s.statusBUSY = true :=
  ⟨running 0x01#8 5#8 3#8 13#8, _, witness_Inv, rfl, by decide⟩

theorem witness_MontgomeryConstant : 13 % 2 = 1 := by decide

theorem witness_MontMulLaws : (13 % 2 = 1 ∧ 5 < 13 ∧ 12 < 13) ∧ (1 % 2 = 1 ∧ 0 < 1) := by decide

theorem witness_BarrettReduceLaw : 1 ≤ 13 ∧ 200 < beta ^ (2 * limbCount 13) := by decide +kernel

theorem witness_ReduceLongLaw : 1 ≤ 1 ∧ 1 ≤ 13 := by decide

theorem witness_DatapathComputesTheCommands : 1 ≤ 13 ∧ (ArithOp.montmul = .montmul → 13 % 2 = 1) ∧
    (ArithOp.modexp = .montmul → 14 % 2 = 1) := by decide

/-- A state just loaded, one in the scan and one at the end of the work, reached by internal steps from a running engine. -/
theorem witness_DatapathFollowsTheCommand :
    (NormalRun .modexp (running 0x01#8 5#8 3#8 13#8) ∧ arithOp (running 0x01#8 5#8 3#8 13#8).ctrlCMD = some .modexp ∧
      (running 0x01#8 5#8 3#8 13#8).datapath.stage = .load) ∧
    (running 0x01#8 5#8 3#8 13#8).DatapathInv ∧
    (∃ s : State, s.DatapathInv ∧ s.statusBUSY = true ∧ s.datapath.stage = .done) := by
  refine ⟨⟨witness_NormalRun _ _, by decide, by decide⟩, fun _ h => absurd rfl h,
    { running 0x03#8 5#8 3#8 13#8 with datapath := ⟨5, 0, 13, 5, 0, 5, 0, 0, 0, barrettMu 13, 0, 0, .done⟩ }, ?_, rfl, rfl⟩
  intro _ _
  refine ⟨.modred, by decide, ⟨⟨rfl, witness_HandlesPresent .modred 0x03#8 5#8 3#8 13#8, by decide,
    witness_OperandsFit .modred 0x03#8 5#8 3#8 13#8, by decide, by decide⟩, by decide, by decide, by decide, by decide, rfl,
    by simp, by simp, by simp, by simp, fun _ => by decide⟩⟩

/-- Two states that differ in the accumulator alone. -/
theorem witness_DatapathIsUnobservable :
    let s := running 0x01#8 5#8 3#8 13#8
    let t := { s with datapath := { s.datapath with acc := 7, stage := .exit } }
    t = { s with datapath := t.datapath } ∧ t ≠ s ∧
    (∃ s' t', handleEvent .engineComplete s = .next s' ∧ handleEvent .engineComplete t = .next t' ∧
      s.statusBUSY ≠ s'.statusBUSY) := ⟨rfl, by decide, _, _, rfl, rfl, by decide⟩

theorem witness_LoadedOperandStandsInItsWindow :
    let s := { State.reset with inputs := (Stmt.opnd .mod [1#8, 2#8, 3#8, 4#8, 5#8]).expand }
    Buf.mod ≠ .out ∧ s.statusBUSY = false ∧ Config.legalMaxBytes s.maxBytes = true ∧
    [1#8, 2#8, 3#8, 4#8, 5#8].length ≤ s.maxBytes ∧ s.inputs = (Stmt.opnd .mod [1#8, 2#8, 3#8, 4#8, 5#8]).expand := by decide

theorem witness_SourceScenarioFiveCubedModThirteen :
    let s := running 0x01#8 5#8 3#8 13#8
    s.statusBUSY = true ∧ s.statusLOCKERR = false ∧ Config.legalMaxBytes s.maxBytes = true ∧ s.args = 0xF#4 ∧
    s.baseLen = 1#32 ∧ s.expLen = 1#32 ∧ s.modLen = 1#32 ∧ s.outLen = 1#32 ∧ s.readByte .base 0 = 5#8 ∧
    s.readByte .exp 0 = 3#8 ∧ s.readByte .mod 0 = 13#8 ∧ s.ctrlCMD = 0x01#8 := by decide

end Sys2Proof.Tests
end

/-! PROOFS. Every step keeps the invariant `State.Inv`: one lemma per operation on the state, one for the outcome of a
command, then the events and the step. -/

namespace Sys2Proof.Machine

/-- The invariant speaks of MAX_BYTES, memory, BUSY, DONE, CODE and CAUSE alone. -/
theorem State.Inv.congr {s t : State} (h : s.Inv) (hmax : t.maxBytes = s.maxBytes) (hmem : t.mem = s.mem)
    (hbusy : t.statusBUSY = s.statusBUSY) (hdone : t.statusDONE = s.statusDONE) (hcode : t.statusCODE = s.statusCODE)
    (hcause : t.statusCAUSE = s.statusCAUSE) : t.Inv := by
  obtain ⟨hlegal, hwf, hbacked, hrunning, hstatus⟩ := h
  rw [← hmax] at hlegal hbacked
  rw [← hmem] at hwf hbacked
  rw [← hbusy, ← hdone, ← hcode, ← hcause] at hrunning
  rw [← hcode, ← hcause] at hstatus
  exact ⟨hlegal, hwf, hbacked, hrunning, hstatus⟩

/-! ## The operations that leave memory alone -/

/-- Changing the events still to come keeps the invariant. -/
theorem State.Inv.withInputs {s : State} (h : s.Inv) (rest : List Event) : (s.withInputs rest).Inv :=
  h.congr rfl rfl rfl rfl rfl rfl

/-- The clock keeps the invariant. -/
theorem State.Inv.tick {s : State} (h : s.Inv) : s.tick.Inv :=
  h.congr (by simp) (by simp) (by simp) (by simp) (by simp) (by simp)

/-- An internal step keeps the invariant. -/
theorem State.Inv.internalStep {s : State} (h : s.Inv) : s.internalStep.Inv :=
  h.congr (by simp) (by simp) (by simp) (by simp) (by simp) (by simp)

/-- A read transfer keeps the invariant. -/
theorem State.Inv.hostRead {s : State} (h : s.Inv) (off : Offset) : (s.hostRead off).Inv :=
  h.congr rfl rfl rfl rfl rfl rfl

/-- A dropped write keeps the invariant. -/
theorem State.Inv.lockError {s : State} (h : s.Inv) : s.lockError.Inv :=
  h.congr rfl rfl rfl rfl rfl rfl

/-- A STATUS write can clear DONE but not set it, so it keeps the invariant (R27). -/
theorem State.Inv.writeStatus {s : State} (h : s.Inv) (w : Word) : (s.writeStatus w).Inv := by
  refine ⟨h.legal, h.memWf, h.memBacked, fun hb => ?_, h.status⟩
  obtain ⟨hdone, hcode, hcause⟩ := h.running hb
  exact ⟨by simp [hdone], hcode, hcause⟩

/-- A CTRL write that accepts no command keeps the invariant (R110). -/
theorem State.Inv.writeCtrlIdle {s : State} (h : s.Inv) (w : Word) : (s.writeCtrlIdle w).Inv :=
  h.congr rfl rfl rfl rfl rfl rfl

/-- A CTRL write while BUSY = 1 keeps the invariant (R68). -/
theorem State.Inv.writeCtrlBusy {s : State} (h : s.Inv) (w : Word) : (s.writeCtrlBusy w).Inv :=
  h.congr rfl rfl rfl rfl rfl rfl

/-- An acceptance clears DONE, CODE and CAUSE, so it establishes the status clauses (R111). -/
theorem State.Inv.accept {s : State} (h : s.Inv) (cmd : BitVec 8) (ie : Bool) : (s.accept cmd ie).Inv :=
  ⟨h.legal, h.memWf, h.memBacked, fun _ => ⟨rfl, rfl, rfl⟩, .none, by decide, rfl, rfl⟩

/-- The end of a completion records one check's CODE and CAUSE and clears BUSY (R124). -/
theorem State.Inv.finish {s : State} (h : s.Inv) {c : Cause} (hc : c ≠ .resultGtCap) : (s.finish c).Inv :=
  ⟨h.legal, h.memWf, h.memBacked, nofun, c, hc, rfl, rfl⟩

/-- A write to a locked register keeps the invariant if the unlocked write does (R68). -/
theorem State.Inv.lockedWrite {s : State} (h : s.Inv) {write : State → State} (hw : (write s).Inv) :
    (s.lockedWrite write).Inv := by
  unfold State.lockedWrite
  split
  · exact h.lockError
  · exact hw

/-- A full-strobe write to a register other than CTRL keeps the invariant. -/
theorem State.Inv.writeReg {s : State} (h : s.Inv) (r : Reg) (w : Word) : (s.writeReg r w).Inv := by
  cases r with
  | status => exact h.writeStatus w
  | id | version | caps | ctrl | perfCycles => exact h
  | args | baseLen | expLen | modLen | outLen =>
    apply h.lockedWrite
    exact h.congr rfl rfl rfl rfl rfl rfl

/-- RESET keeps MAX_BYTES, empties memory and clears STATUS (R262). -/
theorem State.Inv.resetEvent {s : State} (h : s.Inv) : s.resetEvent.Inv :=
  ⟨h.legal, List.Pairwise.nil, nofun, fun _ => ⟨rfl, rfl, rfl⟩, .none, by decide, rfl, rfl⟩

/-! ## The operations on the buffers -/

/-- Bytes written below MAX_BYTES are backed, and memory stays canonical (R67). -/
theorem State.Inv.writeBytes {s : State} (h : s.Inv) (X : Buf) {i : Nat} {bytes : List Byte}
    (hfit : i + bytes.length ≤ s.maxBytes) : (s.writeBytes X i bytes).Inv := by
  refine ⟨h.legal, Memory.setBytes_wf _ _ h.memWf, fun c hc => ?_, h.running, h.status⟩
  rcases Memory.mem_setBytes hc with ⟨hlo, hhi⟩ | hc
  · exact ⟨X, by omega, by simp only [writeBytes_maxBytes]; omega⟩
  · exact h.memBacked c hc

/-- Clearing the four buffers writes backed bytes alone and leaves memory canonical (R204). -/
theorem State.Inv.zeroBuffers {s : State} (h : s.Inv) : s.zeroBuffers.Inv :=
  ⟨h.legal, zeroBuffers_wf h.legal, fun _ hc => (mem_zeroBuffers.1 hc).2, h.running, h.status⟩

/-- One lane of a window write keeps the invariant: the lane is dropped where no storage backs it (R67). -/
theorem State.Inv.writeLane {s : State} (h : s.Inv) (X : Buf) (o : Nat) (w : Word) (strb : Strobe) (j : Nat) :
    (State.writeLane X o w strb s j).Inv := by
  unfold State.writeLane
  split
  · next hj => exact h.writeBytes X hj.2
  · exact h

/-- A window write keeps the invariant, lane by lane (R62). -/
theorem State.Inv.writeWindow {s : State} (h : s.Inv) (X : Buf) (o : Nat) (w : Word) (strb : Strobe) :
    (s.writeWindow X o w strb).Inv :=
  (((h.writeLane X o w strb 0).writeLane X o w strb 1).writeLane X o w strb 2).writeLane X o w strb 3

/-! ## The completion -/

/-- What an outcome must meet for its completion to keep the invariant: the bytes fit the output window (R36, R123), and the
error is not RESULT_GT_CAP (R123). -/
def CmdOutcome.Fits (maxBytes : Nat) : CmdOutcome → Prop
  | .write bytes => bytes.length ≤ maxBytes
  | .zeroize => True
  | .error c => c ≠ .resultGtCap

/-- The outcome of a result-computing command fits: a result is no longer than the modulus, which fits its window (R123). -/
theorem execute_fits (op : ArithOp) (s : State) : (execute op s).Fits s.maxBytes := by
  obtain ⟨c, hc, heq⟩ | ⟨-, c, hc, heq⟩ | ⟨ha, hm, heq⟩ := execute_cases op s <;> rw [heq]
  · intro hcap
    simpa [hcap] using checkArguments_cause hc
  · intro hcap
    simpa [hcap] using checkModulus_cause hc
  · obtain ⟨-, -, hfit⟩ := (checkArguments_none op s).1 ha
    have hneeds : op.needs .mod = true := by cases op <;> rfl
    have hmod : s.modLen.toNat ≤ s.maxBytes := hfit .mod (by decide) hneeds
    have hlen := result_length_le op s ((checkModulus_none _ _).1 hm).1 (s.importValue .base) (secondOperand op s)
    simpa [CmdOutcome.Fits] using hlen.trans hmod

/-- A CMD value names a result-computing command, ZEROIZE or an illegal command, in every state alike (R91, R92). -/
theorem commandOutcome_cases (cmd : BitVec 8) :
    (∃ op, commandOutcome cmd = execute op) ∨ (commandOutcome cmd = fun _ => .zeroize) ∨
      commandOutcome cmd = fun _ => .error .illegalCmd := by
  unfold commandOutcome
  repeat' split
  case isTrue => exact .inl ⟨.modexp, rfl⟩
  case isFalse.isTrue => exact .inl ⟨.modmul, rfl⟩
  case isFalse.isFalse.isTrue => exact .inl ⟨.modred, rfl⟩
  case isFalse.isFalse.isFalse.isTrue => exact .inl ⟨.montmul, rfl⟩
  case isFalse.isFalse.isFalse.isFalse.isTrue => exact .inr (.inl rfl)
  case isFalse.isFalse.isFalse.isFalse.isFalse => exact .inr (.inr rfl)

/-- The outcome of every command fits, illegal commands included. -/
theorem commandOutcome_fits (cmd : BitVec 8) (s : State) : (commandOutcome cmd s).Fits s.maxBytes := by
  obtain ⟨op, heq⟩ | heq | heq := commandOutcome_cases cmd <;> rw [heq]
  · exact execute_fits op s
  · trivial
  · exact Cause.noConfusion

/-- The completion of an outcome that fits keeps the invariant. -/
theorem State.Inv.complete {s : State} (h : s.Inv) {o : CmdOutcome} (ho : o.Fits s.maxBytes) : (complete o s).Inv := by
  cases o with
  | write bytes =>
    have hfit : 0 + bytes.length ≤ s.maxBytes := by simpa [CmdOutcome.Fits] using ho
    have hout : { s.writeBytes .out 0 bytes with outLen := BitVec.ofNat 32 bytes.length }.Inv :=
      (h.writeBytes .out hfit).congr rfl rfl rfl rfl rfl rfl
    exact hout.finish (by decide)
  | zeroize => exact h.zeroBuffers.finish (by decide)
  | error c => exact h.finish ho

/-! ## The moves of the agents -/

/-- A full-strobe CTRL write keeps the invariant (R68, R110). -/
theorem State.Inv.afterCtrl {s : State} (h : s.Inv) (w : Word) : (s.afterCtrl w).Inv := by
  unfold State.afterCtrl
  split
  · exact h.writeCtrlBusy w
  · split
    · exact h.accept _ _
    · exact h.writeCtrlIdle w

/-- A write transfer to a window keeps the invariant (R62, R68). -/
theorem State.Inv.hostWriteWindow {s : State} (h : s.Inv) (X : Buf) (o : Nat) (w : Word) (strb : Strobe) :
    (s.hostWriteWindow X o w strb).Inv := by
  unfold State.hostWriteWindow
  split
  · exact h.lockError
  · exact h.writeWindow X o w strb

/-- A write transfer keeps the invariant. -/
theorem State.Inv.afterWrite {s : State} (h : s.Inv) (off : Offset) (w : Word) (strb : Strobe) :
    (s.afterWrite off w strb).Inv := by
  unfold State.afterWrite
  split
  · split
    · exact h.afterCtrl w
    · exact h
  · split
    · exact h.writeReg _ w
    · exact h
  · exact h.hostWriteWindow _ _ w strb
  · exact h

/-- Every event keeps the invariant. -/
theorem State.Inv.afterEvent {s : State} (h : s.Inv) (e : Event) : (s.afterEvent e).Inv := by
  cases e with
  | read off => exact h.hostRead off
  | write off w strb => exact h.afterWrite off w strb
  | engineInternal => exact h.internalStep
  | engineComplete =>
    simp only [State.afterEvent]
    split
    · exact h.complete (commandOutcome_fits _ _)
    · exact h
  | reset => exact h.resetEvent

/-- Settles O50: a step is the clock followed by one event, and both keep the invariant. -/
theorem everyStepKeepsTheInvariant : Obligations.EveryStepKeepsTheInvariant := by
  intro s t h hstep
  cases hin : s.inputs with
  | nil =>
    cases (step_nil hin).symm.trans hstep
    exact h.tick.afterEvent .engineComplete
  | cons e rest =>
    cases (step_cons hin).symm.trans hstep
    exact (h.withInputs rest).tick.afterEvent e

end Sys2Proof.Machine

/-! PROOFS. `modInv` by the extended Euclidean algorithm: each turn keeps the two remainders congruent to their coefficients
times `a`, so the last coefficient times `a` is the gcd. -/

namespace Sys2Proof.Machine

/-- One division step on the coefficients: subtracting `q` times the second row, written without negative numbers. -/
theorem euclid_row_modEq {m a r0 r1 t0 t1 : Nat} (hm : 1 ≤ m) (h0 : a * t0 ≡ r0 [MOD m]) (h1 : a * t1 ≡ r1 [MOD m]) :
    a * ((t0 + (m - r0 / r1 % m) * t1) % m) ≡ r0 % r1 [MOD m] := by
  have hq : r0 / r1 + (m - r0 / r1 % m) = m * (1 + r0 / r1 / m) := by
    have hdiv := Nat.div_add_mod (r0 / r1) m
    have hlt := Nat.mod_lt (r0 / r1) hm
    rw [Nat.mul_add]
    omega
  have hr : r0 + (m - r0 / r1 % m) * r1 = r0 % r1 + m * ((1 + r0 / r1 / m) * r1) := by
    calc r0 + (m - r0 / r1 % m) * r1
        = r0 % r1 + r1 * (r0 / r1) + (m - r0 / r1 % m) * r1 := by rw [Nat.mod_add_div]
      _ = r0 % r1 + (r0 / r1 + (m - r0 / r1 % m)) * r1 := by ring
      _ = r0 % r1 + m * ((1 + r0 / r1 / m) * r1) := by rw [hq, Nat.mul_assoc]
  calc a * ((t0 + (m - r0 / r1 % m) * t1) % m)
      ≡ a * (t0 + (m - r0 / r1 % m) * t1) [MOD m] := (Nat.mod_modEq _ _).mul_left a
    _ = a * t0 + (m - r0 / r1 % m) * (a * t1) := by ring
    _ ≡ r0 + (m - r0 / r1 % m) * r1 [MOD m] := h0.add (h1.mul_left _)
    _ = r0 % r1 + m * ((1 + r0 / r1 / m) * r1) := hr
    _ ≡ r0 % r1 [MOD m] := by simp [Nat.ModEq]

/-- The coefficient that extended Euclid ends with is below `m`. -/
theorem euclidCoeff_lt {m : Nat} (fuel : Nat) {r0 r1 t0 t1 : Nat} (h0 : t0 < m) (h1 : t1 < m) :
    euclidCoeff m fuel r0 r1 t0 t1 < m := by
  induction fuel generalizing r0 r1 t0 t1 with
  | zero => exact h0
  | succ fuel ih =>
    rw [euclidCoeff]
    split
    · exact h0
    · exact ih h1 (Nat.mod_lt _ (Nat.zero_lt_of_lt h0))

/-- With fuel above the second remainder, the coefficient that extended Euclid ends with, times `a`, is the gcd modulo `m`. -/
theorem mul_euclidCoeff_modEq {m a : Nat} (hm : 1 ≤ m) (fuel : Nat) {r0 r1 t0 t1 : Nat} (hfuel : r1 < fuel)
    (h0 : a * t0 ≡ r0 [MOD m]) (h1 : a * t1 ≡ r1 [MOD m]) :
    a * euclidCoeff m fuel r0 r1 t0 t1 ≡ Nat.gcd r0 r1 [MOD m] := by
  induction fuel generalizing r0 r1 t0 t1 with
  | zero => omega
  | succ fuel ih =>
    rw [euclidCoeff]
    split
    · next hr => simpa [hr] using h0
    · next hr =>
      have hlt : r0 % r1 < r1 := Nat.mod_lt _ (Nat.pos_of_ne_zero hr)
      rw [Nat.gcd_comm, Nat.gcd_rec, Nat.gcd_comm]
      exact ih (by omega) h1 (euclid_row_modEq hm h0 h1)

/-- ModInv(a, m) is below `m` (R10). -/
theorem modInv_lt (a : Nat) {m : Nat} (hm : 1 ≤ m) : modInv a m < m :=
  euclidCoeff_lt _ hm (Nat.mod_lt _ hm)

/-- ModInv(a, m) times `a` is gcd(a, m) modulo `m`, whatever the gcd is. -/
theorem mul_modInv_modEq_gcd (a : Nat) {m : Nat} (hm : 1 ≤ m) : a * modInv a m ≡ Nat.gcd a m [MOD m] := by
  have hfuel : a % m < m + 1 := Nat.lt_succ_of_lt (Nat.mod_lt a hm)
  have h0 : a * 0 ≡ m [MOD m] := by simp [Nat.ModEq]
  have h1 : a * (1 % m) ≡ a % m [MOD m] := by
    calc a * (1 % m) ≡ a * 1 [MOD m] := (Nat.mod_modEq 1 m).mul_left a
      _ = a := Nat.mul_one a
      _ ≡ a % m [MOD m] := (Nat.mod_modEq a m).symm
  have hgcd : Nat.gcd m (a % m) = Nat.gcd a m := by rw [Nat.gcd_comm, ← Nat.gcd_rec, Nat.gcd_comm]
  rw [← hgcd]
  exact mul_euclidCoeff_modEq hm (m + 1) hfuel h0 h1

/-- Settles O31: extended Euclid gives an inverse below `m`, and a coprime factor cancels, so it is the only one. -/
theorem modInvIsTheInverse : Obligations.ModInvIsTheInverse := by
  intro a m hm hgcd
  have hinv : a * modInv a m ≡ 1 [MOD m] := hgcd ▸ mul_modInv_modEq_gcd a hm
  refine ⟨modInv_lt a hm, hinv, fun x hx hax => ?_⟩
  have hcancel : x ≡ modInv a m [MOD m] :=
    Nat.ModEq.cancel_left_of_coprime (Nat.gcd_comm a m ▸ hgcd) (Nat.ModEq.trans hax hinv.symm)
  exact hcancel.eq_of_lt_of_lt hx (modInv_lt a hm)

end Sys2Proof.Machine

/-! PROOFS. The outcome of a command as a function of its inputs (R19): what each part of Execute reads. -/

namespace Sys2Proof.Machine

/-- Two states give a command the same inputs: MAX_BYTES, ARGS, the four lengths, and the operand bytes below the lengths
(R19). -/
structure SameInputs (s t : State) : Prop where
  maxBytes : s.maxBytes = t.maxBytes
  args : s.args = t.args
  baseLen : s.baseLen = t.baseLen
  expLen : s.expLen = t.expLen
  modLen : s.modLen = t.modLen
  outLen : s.outLen = t.outLen
  bytes : ∀ X k, X ≠ .out → k < s.lenOf X → s.readByte X k = t.readByte X k

namespace SameInputs

variable {s t : State}

/-- The handles are read from ARGS (R28). -/
theorem present_eq (h : SameInputs s t) (X : Buf) : s.present X = t.present X := by
  cases X <;> simp only [State.present, h.args]

/-- The operand lengths are those of the length registers (R29 to R32). -/
theorem lenOf_eq (h : SameInputs s t) (X : Buf) : s.lenOf X = t.lenOf X := by
  cases X <;> simp only [State.lenOf, h.baseLen, h.expLen, h.modLen, h.outLen]

/-- Import reads the bytes below the operand's length alone (R75). -/
theorem importValue_eq (h : SameInputs s t) {X : Buf} (hX : X ≠ .out) : s.importValue X = t.importValue X := by
  unfold State.importValue
  rw [← h.lenOf_eq X]
  congr 1
  refine List.map_congr_left fun i hi => ?_
  rw [h.bytes X i hX (List.mem_range.1 hi)]

/-- The second operand is EXP or 0 (R113). -/
theorem secondOperand_eq (h : SameInputs s t) (op : ArithOp) : secondOperand op s = secondOperand op t := by
  simp only [secondOperand, h.importValue_eq (X := .exp) (by decide)]

/-- The checks made before any byte is imported read the handles, the lengths and MAX_BYTES alone (R116 to R119). -/
theorem checkArguments_eq (h : SameInputs s t) (op : ArithOp) : checkArguments op s = checkArguments op t := by
  simp only [checkArguments, checkHandles, checkCapacity, checkLengths, h.present_eq, h.lenOf_eq, h.maxBytes, h.modLen,
    h.outLen]

/-- Execute gives the two states one outcome (R113). -/
theorem execute_eq (h : SameInputs s t) (op : ArithOp) : execute op s = execute op t := by
  simp only [execute, exportResult, h.checkArguments_eq, h.secondOperand_eq, h.lenOf_eq,
    h.importValue_eq (X := .base) (by decide), h.importValue_eq (X := .mod) (by decide)]

/-- Every CMD value has one outcome in the two states; an illegal command and ZEROIZE read nothing (R115). -/
theorem commandOutcome_eq (h : SameInputs s t) (cmd : BitVec 8) : commandOutcome cmd s = commandOutcome cmd t := by
  obtain ⟨op, heq⟩ | heq | heq := commandOutcome_cases cmd <;> rw [heq]
  exact h.execute_eq op

end SameInputs

/-- Settles O42: the common outcome is the one the first state's inputs give. -/
theorem outcomeDependsOnInputsAlone : Obligations.OutcomeDependsOnInputsAlone := by
  intro s t hs ht hmax hargs hbase hexp hmod hout hbytes
  have h : SameInputs s t := ⟨hmax, hargs, hbase, hexp, hmod, hout, hbytes⟩
  refine ⟨fun i => ⟨commandOutcome i.opcode s, ?_, ?_⟩, fun hcmd => ⟨commandOutcome s.ctrlCMD s, ?_, ?_⟩⟩
  · rw [exec_eq, if_pos hs]
  · rw [exec_eq, if_pos ht, h.commandOutcome_eq]
  · rw [engineComplete_eq, if_pos hs]
  · rw [engineComplete_eq, if_pos ht, hcmd, h.commandOutcome_eq]

end Sys2Proof.Machine

/-! PROOFS. The laws of the reference datapath (42_datapath.md): the Montgomery constant by Newton's iteration, MontMul as a
loop on limbs, Barrett's quotient estimate, and ReduceLong. -/

namespace Sys2Proof.Machine

/-! ## Limbs and the size of the modulus -/

/-- beta is positive. -/
theorem beta_pos : 0 < beta := Nat.two_pow_pos _

/-- A limb is below beta (R161). -/
theorem limb_lt (i x : Nat) : limb i x < beta := Nat.mod_lt _ beta_pos

/-- A limb, as a digit in base beta. -/
theorem limb_eq (i x : Nat) : limb i x = x / beta ^ i % beta := by
  rw [limb, beta, ← Nat.pow_mul]

/-- The low `i + 1` limbs are the low `i` limbs with limb `i` on top (R161). -/
theorem mod_beta_pow_succ (i x : Nat) : x % beta ^ (i + 1) = x % beta ^ i + beta ^ i * limb i x := by
  rw [limb_eq, Nat.pow_succ, Nat.mod_mul]

/-- A modulus has at least one limb (R161). -/
theorem limbCount_pos (m : Nat) : 1 ≤ limbCount m := Nat.le_max_left _ _

/-- A number is below beta to the number of its limbs (R161). -/
theorem lt_beta_pow_limbCount (x : Nat) : x < beta ^ limbCount x := by
  have hbits : bitlen x ≤ Config.limbBits * limbCount x := by
    simp only [limbCount, Config.limbBits]
    omega
  calc x < 2 ^ bitlen x := lt_two_pow_bitlen x
    _ ≤ 2 ^ (Config.limbBits * limbCount x) := Nat.pow_le_pow_right (by decide) hbits
    _ = beta ^ limbCount x := Nat.pow_mul _ _ _

/-- A nonzero number is at least 2 to the number of its bits less one (R10). -/
theorem two_pow_bitlen_sub_one_le {v : Nat} (h : v ≠ 0) : 2 ^ (bitlen v - 1) ≤ v := by
  rw [bitlen, if_neg h, Nat.add_sub_cancel]
  exact Nat.log2_self_le h

/-- The top limb of a nonzero number is not 0 (R161). -/
theorem beta_pow_limbCount_sub_one_le {x : Nat} (h : 1 ≤ x) : beta ^ (limbCount x - 1) ≤ x := by
  have hbits : Config.limbBits * (limbCount x - 1) ≤ bitlen x - 1 := by
    simp only [limbCount, Config.limbBits]
    omega
  calc beta ^ (limbCount x - 1) = 2 ^ (Config.limbBits * (limbCount x - 1)) := (Nat.pow_mul _ _ _).symm
    _ ≤ 2 ^ (bitlen x - 1) := Nat.pow_le_pow_right (by decide) hbits
    _ ≤ x := two_pow_bitlen_sub_one_le (by omega)

/-- The Montgomery radix is beta to the number of limbs (R16). -/
theorem montRadix_eq (m : Nat) : montRadix m = beta ^ limbCount m := Nat.pow_mul _ _ _

/-- The Montgomery radix has no common factor with an odd modulus (R196). -/
theorem montRadix_coprime {m : Nat} (h : m % 2 = 1) : Nat.gcd m (montRadix m) = 1 :=
  Nat.Coprime.pow_right _ (Nat.coprime_two_right.2 (Nat.odd_iff.2 h))

/-! ## The Montgomery constant (R163) -/

/-- One Newton step squares the modulus for which `x` is an inverse of `m0`: the error 1 - m0 x becomes its square. -/
theorem newton_step_modEq {m0 x d : Nat} (hd : d * d ∣ beta) (h : (m0 * x : ℤ) ≡ 1 [ZMOD d]) :
    (m0 * (x * (2 + beta - m0 * x % beta) % beta : ℕ) : ℤ) ≡ 1 [ZMOD (d * d : ℕ)] := by
  have hle : m0 * x % beta ≤ 2 + beta := by
    have := Nat.mod_lt (m0 * x) beta_pos
    omega
  have hstep : ((x * (2 + beta - m0 * x % beta) % beta : ℕ) : ℤ) ≡ x * (2 - m0 * x) [ZMOD beta] := by
    push_cast [Nat.cast_sub hle]
    have hb : (2 + beta - (m0 * x : ℤ) % beta) ≡ 2 - m0 * x [ZMOD beta] := by
      simpa using (show (2 + beta : ℤ) ≡ 2 [ZMOD beta] by simp).sub (Int.mod_modEq (m0 * x : ℤ) beta)
    exact (Int.mod_modEq _ _).trans (hb.mul_left _)
  obtain ⟨c, hc⟩ := (Int.modEq_iff_dvd.1 h : (d : ℤ) ∣ 1 - m0 * x)
  have hsquare : (m0 * (x * (2 - m0 * x)) : ℤ) ≡ 1 [ZMOD (d * d : ℕ)] := by
    refine Int.modEq_iff_dvd.2 ⟨c * c, ?_⟩
    calc (1 - m0 * (x * (2 - m0 * x)) : ℤ) = (1 - m0 * x) * (1 - m0 * x) := by ring
      _ = (d * d : ℕ) * (c * c) := by rw [hc]; push_cast; ring
  exact ((hstep.of_dvd (by exact_mod_cast hd)).mul_left _).trans hsquare

/-- `n` Newton steps from an inverse modulo 2^(2^k) give one modulo 2^(2^(k + n)), up to beta = 2^(2^6). -/
theorem newtonInverse_modEq {m0 : Nat} (n k : Nat) (hk : k + n ≤ 6) {x : Nat}
    (h : (m0 * x : ℤ) ≡ 1 [ZMOD (2 ^ 2 ^ k : ℕ)]) :
    (m0 * newtonInverse m0 n x : ℤ) ≡ 1 [ZMOD (2 ^ 2 ^ (k + n) : ℕ)] := by
  induction n generalizing k x with
  | zero => exact h
  | succ n ih =>
    have hsq : (2 ^ 2 ^ k * 2 ^ 2 ^ k : ℕ) = 2 ^ 2 ^ (k + 1) := by rw [← Nat.pow_add, Nat.pow_succ, Nat.mul_two]
    have hdvd : 2 ^ 2 ^ (k + 1) ∣ beta := by
      have : 2 ^ (k + 1) ≤ 2 ^ 6 := Nat.pow_le_pow_right (by decide) (by omega)
      exact Nat.pow_dvd_pow 2 this
    have hstep := newton_step_modEq (hsq ▸ hdvd) h
    rw [hsq] at hstep
    rw [show k + (n + 1) = k + 1 + n by omega]
    exact ih (k + 1) (by omega) hstep

/-- Six Newton steps from 1 give the inverse of an odd limb modulo beta (R163). -/
theorem mul_newtonInverse_modEq {m0 : Nat} (h : m0 % 2 = 1) : m0 * newtonInverse m0 6 1 ≡ 1 [MOD beta] := by
  have h1 : (m0 * (1 : ℕ) : ℤ) ≡ 1 [ZMOD (2 ^ 2 ^ 0 : ℕ)] := by
    simp only [Int.ModEq]
    omega
  exact_mod_cast newtonInverse_modEq 6 0 (by decide) h1

/-- A value kept below beta stays below beta under Newton steps. -/
theorem newtonInverse_lt {m0 : Nat} (n : Nat) {x : Nat} (hx : x < beta) : newtonInverse m0 n x < beta := by
  induction n generalizing x with
  | zero => exact hx
  | succ n ih => exact ih (Nat.mod_lt _ beta_pos)

/-- n0' is minus the inverse of an odd modulus, modulo beta (R163). -/
theorem mul_montConstant_modEq {m : Nat} (h : m % 2 = 1) : m * montConstant m + 1 ≡ 0 [MOD beta] := by
  have hodd : m % beta % 2 = 1 := by rw [Nat.mod_mod_of_dvd _ (show 2 ∣ beta by decide), h]
  have hlt : newtonInverse (m % beta) 6 1 < beta := newtonInverse_lt 6 (by decide)
  have hinv : m * newtonInverse (m % beta) 6 1 ≡ 1 [MOD beta] :=
    ((Nat.mod_modEq m beta).symm.mul_right _).trans (mul_newtonInverse_modEq hodd)
  calc m * montConstant m + 1
      ≡ m * (beta - newtonInverse (m % beta) 6 1) + m * newtonInverse (m % beta) 6 1 [MOD beta] :=
        ((Nat.mod_modEq _ _).mul_left m).add hinv.symm
    _ = m * beta := by rw [← Nat.mul_add, Nat.sub_add_cancel hlt.le]
    _ ≡ 0 [MOD beta] := by simp [Nat.ModEq]

/-! ## MontMul (R164 to R166) -/

/-- One CIOS iteration divides by beta without a remainder (R164). -/
theorem montMulStep_mul_beta (a b : Nat) {m n0 : Nat} (hn : m * n0 + 1 ≡ 0 [MOD beta]) (t i : Nat) :
    montMulStep a b m n0 t i * beta = t + limb i a * b + (t + limb i a * b) % beta * n0 % beta * m := by
  have hdvd : ∀ x : Nat, beta ∣ x + x % beta * n0 % beta * m := fun x => by
    refine (Nat.modEq_zero_iff_dvd).1 ?_
    calc x + x % beta * n0 % beta * m ≡ x + x * n0 * m [MOD beta] :=
          (((Nat.mod_modEq _ _).trans ((Nat.mod_modEq x beta).mul_right n0)).mul_right m).add_left x
      _ = x * (m * n0 + 1) := by ring
      _ ≡ x * 0 [MOD beta] := hn.mul_left x
  exact Nat.div_mul_cancel (hdvd _)

/-- The accumulator of MontMul stays below b + m (R164). -/
theorem montMulStep_lt (a : Nat) {b m n0 t : Nat} (hn : m * n0 + 1 ≡ 0 [MOD beta]) (ht : t < b + m) (i : Nat) :
    montMulStep a b m n0 t i < b + m := by
  refine Nat.lt_of_mul_lt_mul_right (a := beta) ?_
  rw [montMulStep_mul_beta a b hn]
  have ha : limb i a * b ≤ (beta - 1) * b := Nat.mul_le_mul_right b (Nat.le_sub_one_of_lt (limb_lt i a))
  have hu : (t + limb i a * b) % beta * n0 % beta * m ≤ (beta - 1) * m :=
    Nat.mul_le_mul_right m (Nat.le_sub_one_of_lt (Nat.mod_lt _ beta_pos))
  have hsplit : (b + m) * beta = (beta - 1) * b + (beta - 1) * m + (b + m) := by
    have hb : beta = beta - 1 + 1 := by decide
    calc (b + m) * beta = (b + m) * (beta - 1 + 1) := by rw [← hb]
      _ = (beta - 1) * b + (beta - 1) * m + (b + m) := by ring
  omega

/-- After `j` CIOS iterations the accumulator, times beta^j, is the product of `b` and the low `j` limbs of `a` modulo `m`,
and it is below b + m (R164). -/
theorem montMul_loop (a b : Nat) {m n0 : Nat} (hm : 1 ≤ m) (hn : m * n0 + 1 ≡ 0 [MOD beta]) (j : Nat) :
    (List.range j).foldl (montMulStep a b m n0) 0 < b + m ∧
    (List.range j).foldl (montMulStep a b m n0) 0 * beta ^ j ≡ a % beta ^ j * b [MOD m] := by
  induction j with
  | zero => exact ⟨Nat.add_pos_right b hm, by simp [Nat.mod_one, Nat.ModEq]⟩
  | succ j ih =>
    obtain ⟨hlt, hmod⟩ := ih
    rw [List.range_succ, List.foldl_append, List.foldl_cons, List.foldl_nil]
    generalize (List.range j).foldl (montMulStep a b m n0) 0 = t at hlt hmod
    refine ⟨montMulStep_lt a hn hlt j, ?_⟩
    generalize hu : (t + limb j a * b) % beta * n0 % beta = u
    calc montMulStep a b m n0 t j * beta ^ (j + 1)
        = montMulStep a b m n0 t j * beta * beta ^ j := by rw [Nat.pow_succ]; ring
      _ = t * beta ^ j + beta ^ j * limb j a * b + m * (u * beta ^ j) := by
          rw [montMulStep_mul_beta a b hn, hu]; ring
      _ ≡ a % beta ^ j * b + beta ^ j * limb j a * b [MOD m] := by
          simpa [Nat.ModEq, Nat.add_mod] using hmod.add_right (beta ^ j * limb j a * b)
      _ = a % beta ^ (j + 1) * b := by rw [mod_beta_pow_succ]; ring

/-- MontMul's result is below the modulus (R166). -/
theorem montMul_lt (a : Nat) {b m : Nat} (hodd : m % 2 = 1) (hb : b < m) : montMul a b m < m := by
  have h := (montMul_loop a b (by omega) (mul_montConstant_modEq hodd) (limbCount m)).1
  simp only [montMul]
  split <;> omega

/-- MontMul's result, times the radix, is the product of the operands modulo `m` (R166). -/
theorem montMul_mul_radix (a : Nat) {b m : Nat} (hodd : m % 2 = 1) (ha : a < m) :
    montMul a b m * montRadix m ≡ a * b [MOD m] := by
  have h := (montMul_loop a b (by omega) (mul_montConstant_modEq hodd) (limbCount m)).2
  rw [Nat.mod_eq_of_lt (ha.trans (lt_beta_pow_limbCount m)), ← montRadix_eq] at h
  have hsub : ∀ t : Nat, (if t ≥ m then t - m else t) ≡ t [MOD m] := fun t => by
    split
    · next hge => simpa [Nat.ModEq] using (Nat.mod_eq_sub_mod hge).symm
    · rfl
  exact ((hsub _).mul_right _).trans h

/-- MontMul's result is the one number below `m` that the radix turns into the product (R166). -/
theorem montMul_eq {a b m z : Nat} (hodd : m % 2 = 1) (ha : a < m) (hb : b < m) (hz : z < m)
    (h : z * montRadix m ≡ a * b [MOD m]) : montMul a b m = z :=
  (Nat.ModEq.cancel_right_of_coprime (montRadix_coprime hodd) ((montMul_mul_radix a hodd ha).trans h.symm)).eq_of_lt_of_lt
    (montMul_lt a hodd hb) hz

/-- The law of MontMul with the inverse of the radix (R166). -/
theorem montMul_eq_modInv {a b m : Nat} (hodd : m % 2 = 1) (ha : a < m) (hb : b < m) :
    montMul a b m = a * b * modInv (montRadix m) m % m := by
  have hinv : montRadix m * modInv (montRadix m) m ≡ 1 [MOD m] := by
    simpa [Nat.gcd_comm, montRadix_coprime hodd] using mul_modInv_modEq_gcd (montRadix m) (m := m) (by omega)
  refine montMul_eq hodd ha hb (Nat.mod_lt _ (by omega)) ?_
  calc a * b * modInv (montRadix m) m % m * montRadix m
      ≡ a * b * modInv (montRadix m) m * montRadix m [MOD m] := (Nat.mod_modEq _ _).mul_right _
    _ = a * b * (montRadix m * modInv (montRadix m) m) := by ring
    _ ≡ a * b * 1 [MOD m] := hinv.mul_left _
    _ = a * b := Nat.mul_one _

/-- MontMul by R^2 mod m takes a number into the Montgomery domain (R167). -/
theorem montMul_enter {x m : Nat} (hodd : m % 2 = 1) (hx : x < m) :
    montMul x (montRadix m ^ 2 % m) m = x * montRadix m % m := by
  refine montMul_eq hodd hx (Nat.mod_lt _ (by omega)) (Nat.mod_lt _ (by omega)) ?_
  calc x * montRadix m % m * montRadix m ≡ x * montRadix m * montRadix m [MOD m] := (Nat.mod_modEq _ _).mul_right _
    _ = x * montRadix m ^ 2 := by ring
    _ ≡ x * (montRadix m ^ 2 % m) [MOD m] := (Nat.mod_modEq _ _).symm.mul_left _

/-- MontMul by 1 mod m takes a number out of the Montgomery domain (R167). -/
theorem montMul_leave {x m : Nat} (hodd : m % 2 = 1) : montMul (x * montRadix m % m) (1 % m) m = x % m := by
  have hm : 0 < m := by omega
  refine montMul_eq hodd (Nat.mod_lt _ hm) (Nat.mod_lt _ hm) (Nat.mod_lt _ hm) ?_
  calc x % m * montRadix m ≡ x * montRadix m * 1 [MOD m] := by
        rw [Nat.mul_one]; exact (Nat.mod_modEq _ _).mul_right _
    _ ≡ x * montRadix m % m * (1 % m) [MOD m] := (Nat.mod_modEq _ _).symm.mul (Nat.mod_modEq _ _).symm

/-- MontMul of two numbers in the Montgomery domain is their product's form (R167). -/
theorem montMul_forms {x y m : Nat} (hodd : m % 2 = 1) :
    montMul (x * montRadix m % m) (y * montRadix m % m) m = x * y * montRadix m % m := by
  have hm : 0 < m := by omega
  refine montMul_eq hodd (Nat.mod_lt _ hm) (Nat.mod_lt _ hm) (Nat.mod_lt _ hm) ?_
  calc x * y * montRadix m % m * montRadix m ≡ x * y * montRadix m * montRadix m [MOD m] :=
        (Nat.mod_modEq _ _).mul_right _
    _ = x * montRadix m * (y * montRadix m) := by ring
    _ ≡ x * montRadix m % m * (y * montRadix m % m) [MOD m] := (Nat.mod_modEq _ _).symm.mul (Nat.mod_modEq _ _).symm

/-! ## BarrettReduce and ReduceLong (R169 to R172) -/

/-- Barrett's estimate: with B <= m and x < B C, dividing x by B, then the product with (B C) div m by C, falls short of
x div m by at most 2 (R170). -/
theorem barrett_estimate {x m B C : Nat} (hB : 0 < B) (hBm : B ≤ m) (hC : 0 < C) (hx : x < B * C) :
    x / B * (B * C / m) / C * m ≤ x ∧ x < (x / B * (B * C / m) / C + 3) * m := by
  have hm : 0 < m := hB.trans_le hBm
  have hq1 := Nat.div_add_mod x B
  have hmu := Nat.div_add_mod (B * C) m
  have hr1 := Nat.mod_lt x hB
  have hr2 := Nat.mod_lt (B * C) hm
  have hq1lt : x / B < C := Nat.div_lt_of_lt_mul hx
  generalize x / B = q1 at *
  generalize x % B = r1 at *
  generalize B * C / m = mu at *
  generalize B * C % m = r2 at *
  have hq3 := Nat.div_add_mod (q1 * mu) C
  have hr3 := Nat.mod_lt (q1 * mu) hC
  generalize q1 * mu / C = q3 at *
  generalize q1 * mu % C = r3 at *
  have hsum : C * x = C * (q3 * m) + (C * r1 + q1 * r2 + m * r3) := by
    calc C * x = q1 * (B * C) + C * r1 := by rw [← hq1]; ring
      _ = m * (q1 * mu) + q1 * r2 + C * r1 := by rw [← hmu]; ring
      _ = C * (q3 * m) + (C * r1 + q1 * r2 + m * r3) := by rw [← hq3]; ring
  have hrest : C * r1 + q1 * r2 + m * r3 < C * (3 * m) := by
    have e1 : C * r1 < C * m := Nat.mul_lt_mul_of_pos_left (hr1.trans_le hBm) hC
    have e2 : q1 * r2 ≤ C * m := Nat.mul_le_mul hq1lt.le hr2.le
    have e3 : m * r3 ≤ C * m := by rw [Nat.mul_comm C]; exact Nat.mul_le_mul_left m hr3.le
    have e4 : C * (3 * m) = C * m + C * m + C * m := by ring
    omega
  constructor
  · exact Nat.le_of_mul_le_mul_left (by omega) hC
  · refine Nat.lt_of_mul_lt_mul_left (a := C) ?_
    have : C * ((q3 + 3) * m) = C * (q3 * m) + C * (3 * m) := by ring
    omega

/-- What the quotient estimate leaves is not negative and below 3 m (R170). -/
theorem barrettQuotient_bounds {x m : Nat} (hm : 1 ≤ m) (hx : x < beta ^ (2 * limbCount m)) :
    barrettQuotient x m * m ≤ x ∧ x < (barrettQuotient x m + 3) * m := by
  have hk := limbCount_pos m
  have hsplit : beta ^ (limbCount m - 1) * beta ^ (limbCount m + 1) = beta ^ (2 * limbCount m) := by
    rw [← Nat.pow_add]
    congr 1
    omega
  have h := barrett_estimate (x := x) (m := m) (Nat.pow_pos beta_pos) (beta_pow_limbCount_sub_one_le hm)
    (Nat.pow_pos beta_pos) (hsplit ▸ hx)
  rwa [hsplit] at h

/-- Two turns of the correction loop reduce a remainder below 3 m (R169). -/
theorem correctOnce_twice {m r : Nat} (hr : r < 3 * m) : correctOnce m (correctOnce m r) = r % m := by
  by_cases h1 : m ≤ r
  · by_cases h2 : m ≤ r - m
    · simp [correctOnce, h1, h2, Nat.mod_eq_sub_mod, Nat.mod_eq_of_lt (show r - m - m < m by omega)]
    · simp [correctOnce, h1, h2, Nat.mod_eq_sub_mod, Nat.mod_eq_of_lt (show r - m < m by omega)]
  · simp [correctOnce, h1, Nat.mod_eq_of_lt (show r < m by omega)]

/-- BarrettReduce is the remainder (R171). -/
theorem barrettReduce_eq {x m : Nat} (hm : 1 ≤ m) (hx : x < beta ^ (2 * limbCount m)) : barrettReduce x m = x % m := by
  obtain ⟨hle, hlt⟩ := barrettQuotient_bounds hm hx
  rw [Nat.add_mul] at hlt
  rw [barrettReduce, correctOnce_twice (by omega), Nat.mul_comm, Nat.sub_mul_mod (by rwa [Nat.mul_comm])]

/-- BarrettReduce of the product of two reduced operands (R171, R174). -/
theorem barrettReduce_mul {x y m : Nat} (hx : x < m) (hy : y < m) : barrettReduce (x * y) m = x * y % m := by
  have hlt := lt_beta_pow_limbCount m
  refine barrettReduce_eq (by omega) ?_
  rw [Nat.two_mul, Nat.pow_add]
  exact Nat.mul_lt_mul'' (hx.trans hlt) (hy.trans hlt)

/-- One turn of ReduceLong appends a limb to a remainder (R172). -/
theorem barrettReduce_append {r l m : Nat} (hr : r < m) (hl : l < beta) :
    barrettReduce (r * beta + l) m = (r * beta + l) % m := by
  have hk := limbCount_pos m
  refine barrettReduce_eq (by omega) ?_
  calc r * beta + l < (r + 1) * beta := by rw [Nat.add_mul, Nat.one_mul]; omega
    _ ≤ beta ^ limbCount m * beta := Nat.mul_le_mul_right _ (hr.trans (lt_beta_pow_limbCount m))
    _ = beta ^ (limbCount m + 1) := (Nat.pow_succ _ _).symm
    _ ≤ beta ^ (2 * limbCount m) := Nat.pow_le_pow_right beta_pos (by omega)

/-- ReduceLong's loop over the low `n` limbs, from the remainder `r` of the limbs above (R172). -/
theorem reduceLong_loop {m : Nat} (hm : 1 ≤ m) (x n : Nat) {r : Nat} (hr : r < m) :
    (List.range n).reverse.foldl (fun r j => barrettReduce (r * beta + limb j x) m) r =
      (r * beta ^ n + x % beta ^ n) % m := by
  induction n generalizing r with
  | zero => simp [Nat.mod_one, Nat.mod_eq_of_lt hr]
  | succ n ih =>
    rw [List.range_succ, List.reverse_append, List.reverse_singleton, List.singleton_append, List.foldl_cons,
      barrettReduce_append hr (limb_lt n x), ih (Nat.mod_lt _ hm), mod_beta_pow_succ]
    calc ((r * beta + limb n x) % m * beta ^ n + x % beta ^ n) % m
        = ((r * beta + limb n x) * beta ^ n + x % beta ^ n) % m :=
          ((Nat.mod_modEq _ m).mul_right _).add_right _
      _ = (r * beta ^ (n + 1) + (x % beta ^ n + beta ^ n * limb n x)) % m := by
          rw [Nat.pow_succ]; congr 1; ring

/-- ReduceLong is the remainder, for an operand of any length (R172). -/
theorem reduceLong_eq {m : Nat} (hm : 1 ≤ m) (x : Nat) : reduceLong x m = x % m := by
  have h := reduceLong_loop hm x (limbCount x) hm
  rwa [Nat.zero_mul, Nat.zero_add, Nat.mod_eq_of_lt (lt_beta_pow_limbCount x)] at h

end Sys2Proof.Machine

/-! PROOFS. What the agents' moves change: write transfers by target, the completion, and the moves that start a command,
keep it running or end it. -/

namespace Sys2Proof.Machine

/-! ## Write transfers, by target -/

section Targets

variable {off : Offset}

/-- A CTRL write counts with the full strobe alone (R66). -/
theorem afterWrite_ctrl (h : target off = .reg .ctrl) (w : Word) (strb : Strobe) (s : State) :
    s.afterWrite off w strb = if strb = 0xF#4 then s.afterCtrl w else s := by
  simp [State.afterWrite, h]

/-- A write to a register other than CTRL counts with the full strobe alone (R66). -/
theorem afterWrite_reg {r : Reg} (h : target off = .reg r) (hr : r ≠ .ctrl) (w : Word) (strb : Strobe) (s : State) :
    s.afterWrite off w strb = if strb = 0xF#4 then s.writeReg r w else s := by
  cases r <;> simp_all [State.afterWrite]

/-- A write to a window takes any strobe (R62). -/
theorem afterWrite_window {X : Buf} {o : Nat} (h : target off = .window X o) (w : Word) (strb : Strobe) (s : State) :
    s.afterWrite off w strb = s.hostWriteWindow X o w strb := by
  simp [State.afterWrite, h]

/-- A write to a reserved offset changes nothing (R33). -/
theorem afterWrite_reserved (h : target off = .reserved) (w : Word) (strb : Strobe) (s : State) :
    s.afterWrite off w strb = s := by
  simp [State.afterWrite, h]

end Targets

/-- A locked write while BUSY = 1 is dropped (R68). -/
theorem lockedWrite_busy {s : State} (h : s.statusBUSY = true) (write : State → State) :
    s.lockedWrite write = s.lockError := if_pos h

/-- A locked write while BUSY = 0 is made (R68). -/
theorem lockedWrite_idle {s : State} (h : s.statusBUSY = false) (write : State → State) :
    s.lockedWrite write = write s := by
  simp [State.lockedWrite, h]

/-- A window write while BUSY = 1 is dropped (R68). -/
theorem hostWriteWindow_busy {s : State} (h : s.statusBUSY = true) (X : Buf) (o : Nat) (w : Word) (strb : Strobe) :
    s.hostWriteWindow X o w strb = s.lockError := if_pos h

/-- A window write while BUSY = 0 is made (R62). -/
theorem hostWriteWindow_idle {s : State} (h : s.statusBUSY = false) (X : Buf) (o : Nat) (w : Word) (strb : Strobe) :
    s.hostWriteWindow X o w strb = s.writeWindow X o w strb := by
  simp [State.hostWriteWindow, h]

/-- A CTRL write while BUSY = 1 (R68). -/
theorem afterCtrl_busy {s : State} (h : s.statusBUSY = true) (w : Word) : s.afterCtrl w = s.writeCtrlBusy w := if_pos h

/-- A CTRL write with START while BUSY = 0 is an acceptance (R111). -/
theorem afterCtrl_start {s : State} (h : s.statusBUSY = false) {w : Word} (hw : fieldSTART w = true) :
    s.afterCtrl w = s.accept (fieldCMD w) (fieldIE w) := by
  simp [State.afterCtrl, h, hw]

/-- A CTRL write without START while BUSY = 0 only sets IE and CMD (R110). -/
theorem afterCtrl_noStart {s : State} (h : s.statusBUSY = false) {w : Word} (hw : fieldSTART w = false) :
    s.afterCtrl w = s.writeCtrlIdle w := by
  simp [State.afterCtrl, h, hw]

/-! ## What a move can change -/

/-- What a completion changes: memory, OUT_LEN, STATUS and the working registers (R124). -/
theorem complete_frame (o : CmdOutcome) (s : State) :
    complete o s = { s.discardDatapath with
      mem := (complete o s).mem, outLen := (complete o s).outLen, statusBUSY := false, statusDONE := true
      statusCODE := (complete o s).statusCODE, statusCAUSE := (complete o s).statusCAUSE } := by
  cases o <;> rfl

/-- What a write transfer changes while BUSY = 1: CTRL.IE, DONE and LOCKERR (R68). -/
theorem afterWrite_busy {s : State} (h : s.statusBUSY = true) (off : Offset) (w : Word) (strb : Strobe) :
    s.afterWrite off w strb = { s with
      ctrlIE := (s.afterWrite off w strb).ctrlIE, statusDONE := (s.afterWrite off w strb).statusDONE
      statusLOCKERR := (s.afterWrite off w strb).statusLOCKERR } := by
  unfold State.afterWrite
  split
  · split
    · rw [afterCtrl_busy h]; rfl
    · rfl
  · next r _ _ =>
    split
    · obtain heq | heq | heq := writeReg_busy r w s h <;> rw [heq] <;> rfl
    · rfl
  · rw [hostWriteWindow_busy h]; rfl
  · rfl

/-- What a register write other than CTRL changes while BUSY = 0: DONE, LOCKERR, ARGS and the lengths. -/
theorem writeReg_idle {s : State} (h : s.statusBUSY = false) (r : Reg) (w : Word) :
    s.writeReg r w = { s with
      statusDONE := (s.writeReg r w).statusDONE, statusLOCKERR := (s.writeReg r w).statusLOCKERR
      args := (s.writeReg r w).args, baseLen := (s.writeReg r w).baseLen, expLen := (s.writeReg r w).expLen
      modLen := (s.writeReg r w).modLen, outLen := (s.writeReg r w).outLen } := by
  cases r with
  | id | version | caps | ctrl | status | perfCycles => rfl
  | args | baseLen | expLen | modLen | outLen => simp only [State.writeReg, lockedWrite_idle h]

/-- While BUSY = 0 a write transfer is an acceptance, or it changes the registers it can write and memory alone. -/
theorem afterWrite_idle {s : State} (h : s.statusBUSY = false) (off : Offset) (w : Word) (strb : Strobe) :
    (strb = 0xF#4 ∧ target off = .reg .ctrl ∧ fieldSTART w = true ∧
      s.afterWrite off w strb = s.accept (fieldCMD w) (fieldIE w)) ∨
    s.afterWrite off w strb = { s with
      ctrlIE := (s.afterWrite off w strb).ctrlIE, ctrlCMD := (s.afterWrite off w strb).ctrlCMD
      statusDONE := (s.afterWrite off w strb).statusDONE, statusLOCKERR := (s.afterWrite off w strb).statusLOCKERR
      args := (s.afterWrite off w strb).args, baseLen := (s.afterWrite off w strb).baseLen
      expLen := (s.afterWrite off w strb).expLen, modLen := (s.afterWrite off w strb).modLen
      outLen := (s.afterWrite off w strb).outLen, mem := (s.afterWrite off w strb).mem } := by
  unfold State.afterWrite
  split
  · next htarget =>
    split
    · next hstrb =>
      cases hw : fieldSTART w
      · right
        rw [afterCtrl_noStart h hw]
        rfl
      · exact .inl ⟨hstrb, htarget, rfl, afterCtrl_start h hw⟩
    · exact .inr rfl
  · right
    split
    · rw [writeReg_idle h]
    · rfl
  · right
    rw [hostWriteWindow_idle h, writeWindow_eq]
  · exact .inr rfl

/-- The only move that starts a command is a full-strobe CTRL write with START = 1, and it is an acceptance (R39, R111). -/
theorem afterEvent_starts {e : Event} {s : State} (hs : s.statusBUSY = false) (ht : (s.afterEvent e).statusBUSY = true) :
    ∃ off w, e = .write off w 0xF#4 ∧ target off = .reg .ctrl ∧ fieldSTART w = true ∧
      s.afterEvent e = s.accept (fieldCMD w) (fieldIE w) := by
  cases e with
  | write off w strb =>
    obtain ⟨rfl, htarget, hw, heq⟩ | heq := afterWrite_idle hs off w strb
    · exact ⟨off, w, rfl, htarget, hw, heq⟩
    · rw [State.afterEvent, heq] at ht
      simp [hs] at ht
  | read off | engineInternal | engineComplete => simp [State.afterEvent, hs] at ht
  | reset => cases ht

/-- The only moves that end a command are the ENGINE's completion and a reset (R39, R124, R262). -/
theorem afterEvent_ends {e : Event} {s : State} (hs : s.statusBUSY = true) (ht : (s.afterEvent e).statusBUSY = false) :
    e = .engineComplete ∨ e = .reset := by
  cases e with
  | write off w strb =>
    rw [State.afterEvent, afterWrite_busy hs] at ht
    simp [hs] at ht
  | read off | engineInternal => simp [State.afterEvent, hs] at ht
  | engineComplete => exact .inl rfl
  | reset => exact .inr rfl

/-- What a move that leaves a command running changes: CTRL.IE, DONE, LOCKERR, PRDATA and, for an internal step, the working
registers (R68, R112). -/
theorem afterEvent_running {e : Event} {s : State} (hs : s.statusBUSY = true) (ht : (s.afterEvent e).statusBUSY = true) :
    s.afterEvent e = { s with
      ctrlIE := (s.afterEvent e).ctrlIE, statusDONE := (s.afterEvent e).statusDONE
      statusLOCKERR := (s.afterEvent e).statusLOCKERR, prdata := (s.afterEvent e).prdata
      datapath := (s.afterEvent e).datapath } := by
  cases e with
  | read off => rfl
  | write off w strb =>
    simp only [State.afterEvent]
    rw [afterWrite_busy hs]
  | engineInternal =>
    simp only [State.afterEvent]
    rw [internalStep_eq]
  | engineComplete => simp [State.afterEvent, hs, complete_busy] at ht
  | reset => cases ht

/-- Only an internal step moves the working registers of a command that keeps running (R112). -/
theorem afterEvent_running_datapath {e : Event} {s : State} (hs : s.statusBUSY = true)
    (ht : (s.afterEvent e).statusBUSY = true) (he : e ≠ .engineInternal) : (s.afterEvent e).datapath = s.datapath := by
  cases e with
  | read off => rfl
  | write off w strb =>
    simp only [State.afterEvent]
    rw [afterWrite_busy hs]
  | engineInternal => exact absurd rfl he
  | engineComplete => simp [State.afterEvent, hs, complete_busy] at ht
  | reset => cases ht

end Sys2Proof.Machine

/-! PROOFS. The working registers of a running command (R40, R145 to R147, R173 to R177): what each of the model's stages
leaves in them, that every agent's move keeps `State.DatapathInv`, and how many internal steps the work takes. -/

namespace Sys2Proof.Machine

/-! ## The reference controllers on the working registers -/

/-- Before the first bit the scan's accumulator is the form of 1 (R145, R147). -/
theorem loopValue_start {d : Datapath} {n : Nat} (h : d.e < 2 ^ n) :
    loopValue d n = (if d.m % 2 = 1 then montRadix d.m else 1) % d.m := by
  rw [loopValue, Nat.div_eq_of_lt h, Nat.pow_zero, Nat.one_mul]

/-- The scan's accumulator for an odd modulus (R145). -/
theorem loopValue_odd {d : Datapath} (h : d.m % 2 = 1) (n : Nat) :
    loopValue d n = d.a ^ (d.e / 2 ^ n) * montRadix d.m % d.m := by
  rw [loopValue, if_pos h]

/-- The scan's accumulator for an even modulus (R147). -/
theorem loopValue_even {d : Datapath} (h : ¬ d.m % 2 = 1) (n : Nat) : loopValue d n = d.a ^ (d.e / 2 ^ n) % d.m := by
  rw [loopValue, if_neg h, Nat.mul_one]

/-- The exponent's bits from index `i` up, by bit `i`: the square of the power above, times the base if the bit is 1. -/
theorem pow_div_two_pow (a e i : Nat) : a ^ (e / 2 ^ i) =
    if e.testBit i then a ^ (e / 2 ^ (i + 1)) * a ^ (e / 2 ^ (i + 1)) * a
    else a ^ (e / 2 ^ (i + 1)) * a ^ (e / 2 ^ (i + 1)) := by
  have hdiv := Nat.div_add_mod (e / 2 ^ i) 2
  rw [Nat.div_div_eq_div_mul, ← Nat.pow_succ] at hdiv
  simp only [Nat.testBit_eq_decide_div_mod_eq, decide_eq_true_eq]
  split
  · next hbit =>
    rw [hbit] at hdiv
    rw [← hdiv, Nat.pow_succ, Nat.two_mul, Nat.pow_add]
  · next hbit =>
    rw [show e / 2 ^ i % 2 = 0 by omega] at hdiv
    rw [← hdiv, Nat.add_zero, Nat.two_mul, Nat.pow_add]

/-- One iteration of the scan in the Montgomery domain does bit `i` (R145, R146). -/
theorem scanBit_acc_odd {d : Datapath} (hodd : d.m % 2 = 1) (hxt : d.xt = d.a * montRadix d.m % d.m)
    (hacc : d.acc = loopValue d (d.i + 1)) : (scanBit d).acc = loopValue d d.i := by
  rw [loopValue_odd hodd] at hacc
  rw [loopValue_odd hodd, pow_div_two_pow]
  simp only [scanBit, if_pos hodd, hacc, hxt, montMul_forms hodd]
  split <;> rfl

/-- One iteration of the scan on the Barrett pipeline does bit `i` (R146, R147). -/
theorem scanBit_acc_even {d : Datapath} (hm : d.m ≠ 0) (heven : ¬ d.m % 2 = 1) (hbm : d.bm = d.a % d.m)
    (hacc : d.acc = loopValue d (d.i + 1)) : (scanBit d).acc = loopValue d d.i := by
  have hlt : ∀ x, x % d.m < d.m := fun x => Nat.mod_lt x (Nat.pos_of_ne_zero hm)
  rw [loopValue_even heven] at hacc
  rw [loopValue_even heven, pow_div_two_pow]
  simp only [scanBit, if_neg heven, hacc, hbm, barrettReduce_mul (hlt _) (hlt _), ← Nat.mul_mod]
  split <;> rfl

/-- MODEXP's setup for an odd modulus: the radix, its square and the base in the Montgomery domain (R145, R173). -/
theorem setupModexp_odd {d : Datapath} (hodd : d.m % 2 = 1) (hbm : d.bm = d.a % d.m) :
    setupModexp d = { d with
      n0 := montConstant d.m
      rm := montRadix d.m % d.m, r2 := montRadix d.m ^ 2 % d.m, xt := d.a * montRadix d.m % d.m
      t := d.a * montRadix d.m % d.m, acc := montRadix d.m % d.m
      i := bitlen d.e - 1, stage := if d.e = 0 then .exit else .scan } := by
  have hm : 0 < d.m := by omega
  have hlt : ∀ x, x % d.m < d.m := fun x => Nat.mod_lt x hm
  have hr2 : barrettReduce (montRadix d.m % d.m * (montRadix d.m % d.m)) d.m = montRadix d.m ^ 2 % d.m := by
    rw [barrettReduce_mul (hlt _) (hlt _), ← Nat.mul_mod, Nat.pow_two]
  have hxt : montMul (d.a % d.m) (montRadix d.m ^ 2 % d.m) d.m = d.a * montRadix d.m % d.m := by
    rw [montMul_enter hodd (hlt _), Nat.mod_mul_mod]
  simp only [setupModexp, if_pos hodd, hbm, reduceLong_eq hm, hr2, hxt]

/-- MODEXP's setup for an even modulus (R147). -/
theorem setupModexp_even {d : Datapath} (heven : ¬ d.m % 2 = 1) :
    setupModexp d = { d with
      acc := 1 % d.m, i := bitlen d.e - 1, stage := if d.e = 0 then .exit else .scan } := by
  simp only [setupModexp, if_neg heven]

/-- MODEXP's setup points at the exponent's top bit, or past the scan if the exponent is 0 (R146). -/
theorem loadDatapath_modexp_start (a e m : Nat) (d : Datapath) : (loadDatapath .modexp a e m d).i = bitlen e - 1 ∧
    (loadDatapath .modexp a e m d).stage = if e = 0 then .exit else .scan := by
  unfold loadDatapath setupModexp
  by_cases hodd : m % 2 = 1
  · simp only [if_pos hodd, and_self]
  · simp only [if_neg hodd, and_self]

/-- The last operation leaves the command's result in the accumulator (R145, R147, R175 to R177). -/
theorem leaveDatapath_acc {op : ArithOp} {d : Datapath} (hm : d.m ≠ 0) (hmont : op = .montmul → d.m % 2 = 1)
    (hbm : d.bm = d.a % d.m) (hacc : op = .modexp → d.acc = loopValue d 0) :
    (leaveDatapath op d).acc = compute op d.a d.e d.m := by
  have hpos := Nat.pos_of_ne_zero hm
  have hlt : ∀ x, x % d.m < d.m := fun x => Nat.mod_lt x hpos
  cases op with
  | modexp =>
    simp only [leaveDatapath, compute, powMod_eq]
    split
    · next hodd =>
      simp only [hacc rfl, loopValue_odd hodd, montMul_leave hodd, Nat.pow_zero, Nat.div_one]
    · next heven => simp only [hacc rfl, loopValue_even heven, Nat.pow_zero, Nat.div_one]
  | modmul =>
    simp only [leaveDatapath, compute, hbm, reduceLong_eq hpos, barrettReduce_mul (hlt _) (hlt _), ← Nat.mul_mod]
  | modred => exact hbm
  | montmul =>
    simp only [leaveDatapath, compute, hbm, reduceLong_eq hpos, montMul_eq_modInv (hmont rfl) (hlt _) (hlt _)]
    exact ((Nat.mod_modEq _ _).mul (Nat.mod_modEq _ _)).mul_right _

/-- An iteration of the scan moves the accumulator, the CIOS accumulator, the bit index and the stage (R146). -/
theorem scanBit_frame (d : Datapath) : scanBit d = { d with
    acc := (scanBit d).acc, t := (scanBit d).t, i := d.i - 1, stage := if d.i = 0 then .exit else .scan } := by
  unfold scanBit
  by_cases hodd : d.m % 2 = 1
  · simp only [if_pos hodd]
  · simp only [if_neg hodd]

/-- The last operation moves the accumulator, the CIOS accumulator and the stage. -/
theorem leaveDatapath_frame (op : ArithOp) (d : Datapath) : leaveDatapath op d = { d with
    acc := (leaveDatapath op d).acc, t := (leaveDatapath op d).t, stage := .done } := by
  cases op with
  | modexp => simp only [leaveDatapath]; split <;> rfl
  | modmul | modred | montmul => rfl

/-! ## A normal run -/

/-- A command runs normally exactly when it is running and passes every check (R113). -/
theorem normalRun_iff (op : ArithOp) (s : State) : NormalRun op s ↔
    s.statusBUSY = true ∧ checkArguments op s = none ∧ checkModulus op (s.importValue .mod) = none := by
  rw [checkArguments_none, checkModulus_none]
  exact ⟨fun ⟨hb, hh, hc, hl, hm, ho⟩ => ⟨hb, ⟨hh, hc, hl⟩, hm, ho⟩,
    fun ⟨hb, ⟨hh, hc, hl⟩, hm, ho⟩ => ⟨hb, hh, hc, hl, hm, ho⟩⟩

/-- A normal run completes with its exported result (R124). -/
theorem NormalRun.complete_eq {op : ArithOp} {s : State} (h : NormalRun op s) :
    complete (execute op s) s =
      written (compute op (s.importValue .base) (secondOperand op s) (s.importValue .mod)) s := by
  obtain ⟨-, hargs, hmod⟩ := (normalRun_iff op s).1 h
  rw [execute_write_of_checks hargs hmod, complete_write]

/-- The working registers are no input of a command (R160). -/
theorem NormalRun.withDatapath {op : ArithOp} {s : State} (h : NormalRun op s) (d : Datapath) :
    NormalRun op { s with datapath := d } :=
  ⟨h.busy, h.handles, h.capacity, h.lengths, h.modulus, h.odd⟩

/-- The opcode of a result-computing command decides its outcome (R91). -/
theorem commandOutcome_of_arithOp {cmd : BitVec 8} {op : ArithOp} (h : arithOp cmd = some op) :
    commandOutcome cmd = execute op := by
  unfold arithOp at h
  funext s
  unfold commandOutcome
  repeat' split at h
  all_goals simp_all

/-! ## One internal step keeps what the registers hold -/

section Stages

variable {op : ArithOp} {s : State}

/-- A move of the accumulators, the bit index and the stage keeps what the registers hold, if the new accumulator is what the
new stage says. -/
theorem DatapathHolds.advance (h : DatapathHolds op s) (acc t i : Nat) (stage : Stage)
    (hscan : stage = .scan → op = .modexp ∧ i < bitlen s.datapath.e ∧ acc = loopValue s.datapath (i + 1))
    (hexit : stage = .exit → op = .modexp → acc = loopValue s.datapath 0)
    (hdone : stage = .done → acc = compute op s.datapath.a s.datapath.e s.datapath.m) :
    DatapathHolds op { s with datapath := { s.datapath with acc := acc, t := t, i := i, stage := stage } } :=
  ⟨h.run.withDatapath _, h.a, h.e, h.m, h.bm, h.mu, h.n0, h.domain, hscan, hexit, hdone⟩

/-- MODEXP's setup establishes what the registers hold, once its constants stand and the accumulator is the form of 1. -/
theorem NormalRun.holds_setup (h : NormalRun .modexp s) {d : Datapath} (ha : d.a = s.importValue .base)
    (he : d.e = secondOperand .modexp s) (hm : d.m = s.importValue .mod) (hbm : d.bm = d.a % d.m)
    (hmu : d.mu = barrettMu d.m) (hn0 : d.m % 2 = 1 → d.n0 = montConstant d.m)
    (hdomain : d.m % 2 = 1 → d.rm = montRadix d.m % d.m ∧ d.r2 = montRadix d.m ^ 2 % d.m ∧
      d.xt = d.a * montRadix d.m % d.m)
    (hacc : d.acc = (if d.m % 2 = 1 then montRadix d.m else 1) % d.m) (hi : d.i = bitlen d.e - 1)
    (hstage : d.stage = if d.e = 0 then .exit else .scan) : DatapathHolds .modexp { s with datapath := d } := by
  have hn0' : ArithOp.modexp = .montmul ∨ (ArithOp.modexp = .modexp ∧ d.m % 2 = 1) → d.n0 = montConstant d.m :=
    fun hop => hn0 (by simpa using hop)
  by_cases h0 : d.e = 0
  · rw [if_pos h0] at hstage
    have hone : d.acc = loopValue d 0 := hacc.trans (loopValue_start (by rw [h0]; exact Nat.one_pos)).symm
    exact ⟨h.withDatapath d, ha, he, hm, hbm, hmu, hn0', fun _ => hdomain, (nomatch hstage.symm.trans ·),
      fun _ _ => hone, (nomatch hstage.symm.trans ·)⟩
  · rw [if_neg h0] at hstage
    have hpos : 0 < bitlen d.e := by simp [bitlen, h0]
    have hone : d.acc = loopValue d (d.i + 1) := by
      rw [hi, Nat.sub_add_cancel hpos]
      exact hacc.trans (loopValue_start (lt_two_pow_bitlen _)).symm
    exact ⟨h.withDatapath d, ha, he, hm, hbm, hmu, hn0', fun _ => hdomain,
      fun _ => ⟨rfl, hi ▸ Nat.sub_lt hpos Nat.one_pos, hone⟩, (nomatch hstage.symm.trans ·),
      (nomatch hstage.symm.trans ·)⟩

/-- Import and setup establish what the registers hold (R144, R145, R147, R173). -/
theorem NormalRun.holds_load (h : NormalRun op s) : DatapathHolds op { s with
    datapath := loadDatapath op (s.importValue .base) (secondOperand op s) (s.importValue .mod) s.datapath } := by
  have hrun := h.withDatapath
    (loadDatapath op (s.importValue .base) (secondOperand op s) (s.importValue .mod) s.datapath)
  have hbm := reduceLong_eq (Nat.pos_of_ne_zero h.modulus) (s.importValue .base)
  cases op with
  | modmul | modred => exact ⟨hrun, rfl, rfl, rfl, hbm, rfl, nofun, nofun, nofun, nofun, nofun⟩
  | montmul => exact ⟨hrun, rfl, rfl, rfl, hbm, rfl, fun _ => rfl, nofun, nofun, nofun, nofun⟩
  | modexp =>
    simp only [loadDatapath]
    by_cases hodd : s.importValue .mod % 2 = 1
    · rw [setupModexp_odd hodd hbm]
      exact h.holds_setup rfl rfl rfl hbm rfl (fun _ => rfl) (fun _ => ⟨rfl, rfl, rfl⟩) (by rw [if_pos hodd]) rfl rfl
    · rw [setupModexp_even hodd]
      exact h.holds_setup rfl rfl rfl hbm rfl (absurd · hodd) (absurd · hodd) (by rw [if_neg hodd]) rfl rfl

/-- An iteration of the scan keeps what the registers hold (R145 to R147). -/
theorem DatapathHolds.scanBit (h : DatapathHolds op s) (hstage : s.datapath.stage = .scan) :
    DatapathHolds op { s with datapath := scanBit s.datapath } := by
  obtain ⟨hop, hi, hacc⟩ := h.scan hstage
  have hnext : (Machine.scanBit s.datapath).acc = loopValue s.datapath s.datapath.i := by
    by_cases hodd : s.datapath.m % 2 = 1
    · obtain ⟨-, -, hxt⟩ := h.domain hop hodd
      exact scanBit_acc_odd hodd hxt hacc
    · exact scanBit_acc_even (h.m ▸ h.run.modulus) hodd h.bm hacc
  rw [scanBit_frame]
  refine h.advance _ _ _ _ (fun hst => ⟨hop, by omega, ?_⟩) (fun hst _ => ?_) (fun hst => ?_)
  · have hne : s.datapath.i ≠ 0 := fun h0 => by simp [h0] at hst
    rw [hnext, Nat.sub_add_cancel (Nat.pos_of_ne_zero hne)]
  · have h0 : s.datapath.i = 0 := by
      by_contra hne
      simp [hne] at hst
    rw [hnext, h0]
  · split at hst <;> cases hst

/-- The last operation keeps what the registers hold, and the accumulator is the result (R145, R147, R175 to R177). -/
theorem DatapathHolds.leaveDatapath (h : DatapathHolds op s) (hstage : s.datapath.stage = .exit) :
    DatapathHolds op { s with datapath := leaveDatapath op s.datapath } := by
  rw [leaveDatapath_frame]
  refine h.advance _ _ _ _ nofun nofun fun _ => ?_
  exact leaveDatapath_acc (h.m ▸ h.run.modulus) (fun hop => h.m ▸ h.run.odd hop) h.bm (h.exit hstage)

/-- The next stage of the work keeps what the registers hold; before the operands are loaded they hold nothing yet. -/
theorem nextDatapath_holds (hb : s.statusBUSY = true) (h : s.datapath.stage ≠ .load → DatapathHolds op s)
    (hnext : (nextDatapath op s).stage ≠ .load) : DatapathHolds op { s with datapath := nextDatapath op s } := by
  unfold nextDatapath at hnext ⊢
  cases hstage : s.datapath.stage with
  | load =>
    simp only [hstage] at hnext ⊢
    split
    · next hchecks => exact ((normalRun_iff op s).2 ⟨hb, hchecks⟩).holds_load
    · next hchecks => exact absurd hstage (by simpa only [if_neg hchecks] using hnext)
  | scan => exact (h (by simp [hstage])).scanBit hstage
  | exit => exact (h (by simp [hstage])).leaveDatapath hstage
  | done => exact h (by simp [hstage])

end Stages

/-! ## Every move keeps the datapath's invariant -/

/-- An internal step while a result-computing command runs is the next stage of its work (R112). -/
theorem internalStep_eq_next {op : ArithOp} {s : State} (hb : s.statusBUSY = true) (hop : arithOp s.ctrlCMD = some op) :
    s.internalStep = { s with datapath := nextDatapath op s } := by
  simp [State.internalStep, hb, hop]

/-- An internal step does nothing for a command that computes no result (R160). -/
theorem internalStep_eq_self {s : State} (hop : arithOp s.ctrlCMD = none) : s.internalStep = s := by
  simp [State.internalStep, hop]

/-- An internal step keeps the datapath's invariant. -/
theorem State.DatapathInv.internalStep {s : State} (h : s.DatapathInv) : s.internalStep.DatapathInv := by
  cases hop : arithOp s.ctrlCMD with
  | none => rwa [internalStep_eq_self hop]
  | some op =>
    intro hb hnext
    rw [internalStep_statusBUSY] at hb
    rw [internalStep_eq_next hb hop] at hnext ⊢
    refine ⟨op, hop, nextDatapath_holds hb (fun hstage => ?_) hnext⟩
    obtain ⟨op', hop', hholds⟩ := h hb hstage
    cases hop.symm.trans hop'
    exact hholds

/-- CTRL.IE, DONE, LOCKERR and PRDATA are no part of the datapath's invariant. -/
theorem State.DatapathInv.withStatus {s : State} (h : s.DatapathInv) (ie done lockerr : Bool) (prdata : Word) :
    { s with ctrlIE := ie, statusDONE := done, statusLOCKERR := lockerr, prdata := prdata }.DatapathInv := by
  intro hb hstage
  obtain ⟨op, hop, run, ha, he, hm, hbm, hmu, hn0, hdomain, hscan, hexit, hdone⟩ := h hb hstage
  exact ⟨op, hop, ⟨run.busy, run.handles, run.capacity, run.lengths, run.modulus, run.odd⟩,
    ha, he, hm, hbm, hmu, hn0, hdomain, hscan, hexit, hdone⟩

/-- Every agent's move keeps the datapath's invariant: an internal step does the next stage of the work, any other move that
leaves the command running leaves its inputs and the registers alone, and an acceptance goes back to the first stage. -/
theorem State.DatapathInv.afterEvent {s : State} (h : s.DatapathInv) (e : Event) : (s.afterEvent e).DatapathInv := by
  by_cases he : e = .engineInternal
  · rw [he]
    exact h.internalStep
  · cases hs : s.statusBUSY with
    | true =>
      intro ht
      have hinv : (s.afterEvent e).DatapathInv := by
        rw [afterEvent_running hs ht, afterEvent_running_datapath hs ht he]
        exact h.withStatus _ _ _ _
      exact hinv ht
    | false =>
      intro ht hstage
      obtain ⟨off, w, -, -, -, heq⟩ := afterEvent_starts hs ht
      exact absurd (by rw [heq]; rfl) hstage

/-- A finished datapath's accumulator is what completion writes (R124). -/
theorem State.DatapathInv.engineComplete_done {s : State} (h : s.DatapathInv) (hb : s.statusBUSY = true)
    (hstage : s.datapath.stage = .done) : engineComplete s = .next (written s.datapath.acc s) := by
  obtain ⟨op, hop, hholds⟩ := h hb (by simp [hstage])
  rw [engineComplete_eq, if_pos hb, commandOutcome_of_arithOp hop, hholds.run.complete_eq, hholds.done hstage, hholds.a,
    hholds.e, hholds.m]

/-! ## How many internal steps the work takes -/

section Progress

variable {op : ArithOp} {s : State} (hb : s.statusBUSY = true) (hop : arithOp s.ctrlCMD = some op)
include hb hop

/-- A finished datapath stays as it is. -/
theorem internalSteps_done (n : Nat) (hstage : s.datapath.stage = .done) : (internalSteps n s).datapath.stage = .done := by
  induction n with
  | zero => exact hstage
  | succ n ih =>
    have hself : s.internalStep = s := by simp [internalStep_eq_next hb hop, nextDatapath, hstage]
    rwa [internalSteps, hself]

/-- The last operation finishes the work. -/
theorem internalSteps_exit (n : Nat) (hstage : s.datapath.stage = .exit) :
    (internalSteps (n + 1) s).datapath.stage = .done := by
  rw [internalSteps]
  refine internalSteps_done (op := op) (by simpa using hb) (by simpa using hop) n ?_
  rw [internalStep_eq_next hb hop]
  simp only [nextDatapath, hstage]
  rw [leaveDatapath_frame]

/-- The scan takes one step for each bit left, then the last operation finishes the work (R146). -/
theorem internalSteps_scan (n : Nat) (hstage : s.datapath.stage = .scan) (hi : s.datapath.i < n) :
    (internalSteps (n + 1) s).datapath.stage = .done := by
  induction n generalizing s with
  | zero => omega
  | succ n ih =>
    have hnext : s.internalStep.datapath.i = s.datapath.i - 1 ∧
        s.internalStep.datapath.stage = if s.datapath.i = 0 then .exit else .scan := by
      rw [internalStep_eq_next hb hop]
      simp only [nextDatapath, hstage]
      rw [scanBit_frame]
      exact ⟨rfl, rfl⟩
    obtain ⟨hi', hstage'⟩ := hnext
    have hb' : s.internalStep.statusBUSY = true := by simpa using hb
    have hop' : arithOp s.internalStep.ctrlCMD = some op := by simpa using hop
    rw [internalSteps]
    split at hstage'
    · exact internalSteps_exit hb' hop' n hstage'
    · exact ih hb' hop' hstage' (by omega)

end Progress

/-- From the load stage a normal run's work takes as many internal steps as the second operand has bits, and two. -/
theorem internalSteps_load {op : ArithOp} {s : State} (hop : arithOp s.ctrlCMD = some op) (hrun : NormalRun op s)
    (hstage : s.datapath.stage = .load) :
    (internalSteps (bitlen (secondOperand op s) + 2) s).datapath.stage = .done := by
  obtain ⟨hb, hchecks⟩ := (normalRun_iff op s).1 hrun
  have hload : s.internalStep.datapath =
      loadDatapath op (s.importValue .base) (secondOperand op s) (s.importValue .mod) s.datapath := by
    rw [internalStep_eq_next hb hop]
    simp only [nextDatapath, hstage, if_pos hchecks]
  have hb' : s.internalStep.statusBUSY = true := by simpa using hb
  have hop' : arithOp s.internalStep.ctrlCMD = some op := by simpa using hop
  rw [internalSteps]
  cases op with
  | modmul | modred | montmul => exact internalSteps_exit hb' hop' _ (by rw [hload]; rfl)
  | modexp =>
    obtain ⟨hi, hst⟩ := loadDatapath_modexp_start (s.importValue .base) (secondOperand .modexp s) (s.importValue .mod)
      s.datapath
    rw [← hload] at hi hst
    by_cases h0 : secondOperand .modexp s = 0
    · exact internalSteps_exit hb' hop' _ (hst.trans (if_pos h0))
    · have hpos : 0 < bitlen (secondOperand .modexp s) := by simp [bitlen, h0]
      exact internalSteps_scan hb' hop' _ (hst.trans (if_neg h0)) (hi ▸ Nat.sub_lt hpos Nat.one_pos)

/-- Settles O56: the invariant by the stages of the work, the outcome by what a finished datapath holds, and the number of
steps by counting down the bit index. -/
theorem datapathFollowsTheCommand : Obligations.DatapathFollowsTheCommand := by
  refine ⟨nofun, fun e s t h ht => ?_, fun s h hb hstage => h.engineComplete_done hb hstage,
    fun op s hrun hop hstage => internalSteps_load hop hrun hstage⟩
  cases (handleEvent_eq e s).symm.trans ht
  exact h.afterEvent e

end Sys2Proof.Machine

/-! PROOFS. The registers at the port: address decoding, what a read returns, the fields of a written word, and what reads
back (R22 to R35, R41). -/

namespace Sys2Proof.Machine

/-! ## Reads, by target -/

/-- A read of a register's offset returns the register's word (R35). -/
theorem readWord_reg {off : Offset} {r : Reg} (h : target off = .reg r) (s : State) : s.readWord off = s.readReg r := by
  simp [State.readWord, h]

/-- A read of a reserved offset returns 0 (R33). -/
theorem readWord_reserved {off : Offset} (h : target off = .reserved) (s : State) : s.readWord off = 0#32 := by
  simp [State.readWord, h]

/-- The reserved offsets of R33. -/
theorem target_reserved {off : Offset} (h : off.toNat / 4 * 4 = 0x00C ∨ off.toNat / 4 * 4 = 0x01C ∨
    (0x034 ≤ off.toNat ∧ off.toNat < 0x1000) ∨ 0x5000 ≤ off.toNat) : target off = .reserved := by
  rw [target_eq]
  obtain h | h | ⟨hlo, hhi⟩ | h := h
  · rw [h]; rfl
  · rw [h]; rfl
  · generalize ha : off.toNat / 4 * 4 = a
    have hgap : 0x034 ≤ a ∧ a < 0x1000 := by omega
    rw [targetAt, if_pos hgap.2, regAt]
    repeat rw [if_neg (by omega)]
  · unfold targetAt
    repeat rw [if_neg (by omega)]

/-! ## The fields of a written word -/

/-- START, IE and CMD stand in the bits under the mask 0x0000FF03 (R25, R91). -/
theorem fields_mask (w : Word) : fieldSTART (w &&& 0x0000FF03#32) = fieldSTART w ∧
    fieldIE (w &&& 0x0000FF03#32) = fieldIE w ∧ fieldCMD (w &&& 0x0000FF03#32) = fieldCMD w := by
  refine ⟨by simp [fieldSTART], by simp [fieldIE], ?_⟩
  apply BitVec.eq_of_getLsbD_eq
  intro i hi
  simp only [fieldCMD, BitVec.getLsbD_extractLsb', BitVec.getLsbD_and]
  interval_cases i <;> simp

/-- A CTRL write reads START, IE and CMD alone (R25). -/
theorem afterCtrl_mask (w : Word) (s : State) : s.afterCtrl (w &&& 0x0000FF03#32) = s.afterCtrl w := by
  obtain ⟨hstart, hie, hcmd⟩ := fields_mask w
  simp only [State.afterCtrl, State.writeCtrlBusy, State.writeCtrlIdle, hstart, hie, hcmd]

/-- A STATUS write reads bits 1 and 2 alone (R27). -/
theorem writeStatus_mask (w : Word) (s : State) : s.writeStatus (w &&& 0x00000006#32) = s.writeStatus w := by
  simp [State.writeStatus]

/-- ARGS takes bits 3:0 of the word written (R28). -/
theorem args_mask (w : Word) : (w &&& 0x0000000F#32).extractLsb' 0 4 = w.extractLsb' 0 4 := by
  apply BitVec.eq_of_getLsbD_eq
  intro i hi
  simp only [BitVec.getLsbD_extractLsb', BitVec.getLsbD_and]
  interval_cases i <;> simp

/-- The fields of a word, put back into a CTRL word without START, are the word less START and the reserved bits (R25). -/
theorem ctrlWord_fields (w : Word) : ctrlWord (fieldCMD w) (fieldIE w) false = w &&& 0x0000FF02#32 := by
  apply BitVec.eq_of_getLsbD_eq
  intro i hi
  simp only [ctrlWord, fieldCMD, fieldIE, BitVec.getLsbD_append, BitVec.getLsbD_ofBool, BitVec.getLsbD_extractLsb',
    BitVec.getLsbD_and]
  interval_cases i <;> simp

/-- Bits 3:0 of a word, as a word (R28). -/
theorem args_setWidth (w : Word) : (w.extractLsb' 0 4).setWidth 32 = w &&& 0x0000000F#32 := by
  apply BitVec.eq_of_getLsbD_eq
  intro i hi
  simp only [BitVec.getLsbD_setWidth, BitVec.getLsbD_extractLsb', BitVec.getLsbD_and]
  interval_cases i <;> simp

/-! ## Reserved space -/

/-- The reserved bits of a CTRL read are 0 (R25, R33). -/
theorem ctrlRead_reserved (s : State) : s.ctrlRead &&& 0xFFFF00FD#32 = 0#32 := by
  apply BitVec.eq_of_getLsbD_eq
  intro i hi
  simp only [State.ctrlRead, ctrlWord, BitVec.getLsbD_append, BitVec.getLsbD_ofBool, BitVec.getLsbD_and]
  interval_cases i <;> simp

/-- The reserved bits of a STATUS read are 0 (R26, R33). -/
theorem statusWord_reserved (s : State) : s.statusWord &&& 0xFFF000F8#32 = 0#32 := by
  apply BitVec.eq_of_getLsbD_eq
  intro i hi
  rw [BitVec.getLsbD_and, statusWord_bits s i hi]
  interval_cases i <;> simp

/-- The reserved bits of an ARGS read are 0 (R28, R33). -/
theorem args_reserved (s : State) : s.readReg .args &&& 0xFFFFFFF0#32 = 0#32 := by
  apply BitVec.eq_of_getLsbD_eq
  intro i hi
  simp only [State.readReg, BitVec.getLsbD_setWidth, BitVec.getLsbD_and]
  interval_cases i <;> simp

/-- Settles O18: the reserved offsets decode as such, and the masks keep every bit that a write reads. -/
theorem reservedSpaceReadsZeroIgnoresWrites : Obligations.ReservedSpaceReadsZeroIgnoresWrites := by
  refine ⟨fun s off h => ⟨readWord_reserved (target_reserved h) s, fun w strb => ?_⟩,
    fun s => ⟨ctrlRead_reserved s, statusWord_reserved s, args_reserved s⟩,
    fun s off w => ⟨fun h => ?_, fun h => ?_, fun h => ?_⟩⟩ <;> simp only [hostWrite_eq]
  · rw [afterWrite_reserved (target_reserved h)]
  · rw [afterWrite_ctrl h, afterWrite_ctrl h, afterCtrl_mask]
  · rw [afterWrite_reg h (by decide), afterWrite_reg h (by decide)]
    simp only [State.writeReg, writeStatus_mask]
  · rw [afterWrite_reg h (by decide), afterWrite_reg h (by decide)]
    simp only [State.writeReg, args_mask]

/-! ## Identification -/

/-- A legal MAX_BYTES fits the low half of CAPS (R8, R24). -/
theorem legal_lt_two_pow {n : Nat} (h : Config.legalMaxBytes n = true) : n < 2 ^ 16 := by
  have := legal_le h
  omega

/-- CAPS as one word: the bitmap over MAX_BYTES (R24). -/
theorem capsWord_eq {s : State} (h : s.maxBytes < 2 ^ 16) :
    s.capsWord = 0x801E0000#32 ||| BitVec.ofNat 32 s.maxBytes := by
  have h16 : (BitVec.ofNat 16 s.maxBytes).toNat = s.maxBytes := Nat.mod_eq_of_lt h
  have h32 : (BitVec.ofNat 32 s.maxBytes).toNat = s.maxBytes := Nat.mod_eq_of_lt (by omega)
  apply BitVec.eq_of_toNat_eq
  rw [State.capsWord, BitVec.toNat_append, BitVec.toNat_or, h16, h32]
  rfl

/-- The low half of CAPS is MAX_BYTES (R24). -/
theorem capsWord_low {s : State} (h : s.maxBytes < 2 ^ 16) : (s.capsWord.extractLsb' 0 16).toNat = s.maxBytes := by
  have hlow : s.capsWord.extractLsb' 0 16 = BitVec.ofNat 16 s.maxBytes := by
    apply BitVec.eq_of_getLsbD_eq
    intro i hi
    rw [State.capsWord, BitVec.getLsbD_extractLsb', BitVec.getLsbD_append]
    simp [hi]
  rw [hlow, BitVec.toNat_ofNat, Nat.mod_eq_of_lt h]

/-- The high half of CAPS is the bitmap of the legal opcodes (R24). -/
theorem capsWord_bitmap (s : State) {op : Nat} (h : op < 16) :
    s.capsWord.getLsbD (16 + op) = true ↔ BitVec.ofNat 8 op ∈ legalOpcodes := by
  have hbit : s.capsWord.getLsbD (16 + op) = (0x801E#16).getLsbD op := by
    rw [State.capsWord, BitVec.getLsbD_append]
    simp
  have hmap : ∀ op, op < 16 → ((0x801E#16).getLsbD op = true ↔ BitVec.ofNat 8 op ∈ legalOpcodes) := by decide
  rw [hbit, hmap op h]

/-- A CMD value of 0x10 or above is illegal (R24, R92). -/
theorem decodeCMD_high {cmd : BitVec 8} (h : 0x10 ≤ cmd.toNat) (ie : Bool) :
    decodeCMD cmd ie = .error (.illegalCommand cmd ie) := by
  have hne : ∀ k : BitVec 8, k.toNat < 0x10 → cmd ≠ k := fun k hk heq => by
    rw [heq] at h
    omega
  unfold decodeCMD
  repeat rw [if_neg (hne _ (by decide))]

/-- Settles O19: the three registers read their constants and take no write. -/
theorem identificationRegisters : Obligations.IdentificationRegisters := by
  have hid : target 0x000#15 = .reg .id := by decide
  have hversion : target 0x004#15 = .reg .version := by decide
  have hcaps : target 0x008#15 = .reg .caps := by decide
  have hread : ∀ s : State, s.readWord 0x008#15 = s.capsWord := fun s => readWord_reg hcaps s
  have hignore : ∀ {off : Offset} {r : Reg}, target off = .reg r → r ∈ [Reg.id, .version, .caps] →
      ∀ (s : State) (w : Word) (strb : Strobe), hostWrite off w strb s = .next s := by
    intro off r htarget hr s w strb
    have hne : r ≠ .ctrl := fun h => by simp [h] at hr
    rw [hostWrite_eq, afterWrite_reg htarget hne]
    fin_cases hr <;> simp [State.writeReg]
  refine ⟨fun s => ⟨readWord_reg hid s, readWord_reg hversion s, fun hlegal => ?_, fun h512 => ?_, fun op hop => ?_⟩,
    fun s off hoff => ?_, fun cmd ie h => decodeCMD_high h ie, ?_⟩
  · rw [hread]
    exact ⟨capsWord_eq (legal_lt_two_pow hlegal), capsWord_low (legal_lt_two_pow hlegal)⟩
  · rw [hread, State.capsWord, h512]
    rfl
  · rw [hread]
    exact capsWord_bitmap s hop
  · fin_cases hoff
    · exact hignore hid (by decide) s
    · exact hignore hversion (by decide) s
    · exact hignore hcaps (by decide) s
  · rw [hread]
    exact capsWord_eq (by decide)

/-! ## Read after write -/

/-- A full-strobe write to a register other than CTRL (R27 to R34). -/
theorem hostWrite_reg_full {off : Offset} {r : Reg} (h : target off = .reg r) (hr : r ≠ .ctrl) (w : Word) (s : State) :
    hostWrite off w 0xF#4 s = .next (s.writeReg r w) := by
  rw [hostWrite_eq, afterWrite_reg h hr, if_pos rfl]

/-- A full-strobe write to CTRL (R68, R110). -/
theorem hostWrite_ctrl_full {off : Offset} (h : target off = .reg .ctrl) (w : Word) (s : State) :
    hostWrite off w 0xF#4 s = .next (s.afterCtrl w) := by
  rw [hostWrite_eq, afterWrite_ctrl h, if_pos rfl]

/-- Settles O20: each write is made while BUSY = 0, and the read returns the field written. -/
theorem registersReadBack : Obligations.RegistersReadBack := by
  intro s w hidle
  have hlocked : ∀ (off : Offset) (r : Reg) (write : State → State), target off = .reg r → r ≠ .ctrl →
      s.writeReg r w = s.lockedWrite write → hostWrite off w 0xF#4 s = .next (write s) := by
    intro off r write htarget hr hwrite
    rw [hostWrite_reg_full htarget hr, hwrite, lockedWrite_idle hidle]
  refine ⟨fun hstart => ⟨s.writeCtrlIdle w, ?_, rfl, ctrlWord_fields w⟩,
    ⟨_, hlocked 0x018#15 .args (fun s => { s with args := w.extractLsb' 0 4 }) (by decide) (by decide) rfl, rfl,
      args_setWidth w⟩,
    ⟨_, hlocked 0x020#15 .baseLen (fun s => { s with baseLen := w }) (by decide) (by decide) rfl, rfl, rfl⟩,
    ⟨_, hlocked 0x024#15 .expLen (fun s => { s with expLen := w }) (by decide) (by decide) rfl, rfl, rfl⟩,
    ⟨_, hlocked 0x028#15 .modLen (fun s => { s with modLen := w }) (by decide) (by decide) rfl, rfl, rfl⟩,
    ⟨_, hlocked 0x02C#15 .outLen (fun s => { s with outLen := w }) (by decide) (by decide) rfl, rfl, rfl⟩⟩
  rw [hostWrite_ctrl_full (by decide), afterCtrl_noStart hidle hstart]

/-! ## The reset state -/

/-- Settles O46: the values of State.reset. -/
theorem resetState : Obligations.ResetState := by
  unfold Obligations.ResetState
  decide

/-- Settles O49: nothing is written, and STATUS is that of no check failing. -/
theorem invariantAtReset : Obligations.InvariantAtReset :=
  ⟨by decide, List.Pairwise.nil, nofun, nofun, .none, by decide, rfl, rfl⟩

end Sys2Proof.Machine

/-! PROOFS. The phase, LOCKERR, PERF_CYCLES and irq under the agents' moves (R27, R34, R38, R39), and the frame of a
completion (R124, R125). -/

namespace Sys2Proof.Machine

/-! ## The phase -/

/-- The phase is RUN exactly while BUSY = 1 (R39). -/
theorem phase_eq_run (s : State) : s.phase = .run ↔ s.statusBUSY = true := by
  cases hb : s.statusBUSY <;> simp [State.phase, hb]

/-- The phase is IDLE exactly while BUSY = 0 (R39). -/
theorem phase_eq_idle (s : State) : s.phase = .idle ↔ s.statusBUSY = false := by
  cases hb : s.statusBUSY <;> simp [State.phase, hb]

/-- Settles O10: the moves that start and that end a command. -/
theorem phaseChangesOnlyAtItsEvents : Obligations.PhaseChangesOnlyAtItsEvents := by
  refine ⟨rfl, phase_eq_run, fun e s t h hidle hrun => ?_, fun e s t h hrun hidle => ?_⟩
  · cases (handleEvent_eq e s).symm.trans h
    exact afterEvent_starts ((phase_eq_idle s).1 hidle) ((phase_eq_run _).1 hrun)
  · cases (handleEvent_eq e s).symm.trans h
    exact afterEvent_ends ((phase_eq_run s).1 hrun) ((phase_eq_idle _).1 hidle)

/-! ## LOCKERR -/

/-- A CTRL write sets LOCKERR exactly by a START while BUSY = 1 (R27, R68). -/
theorem afterCtrl_statusLOCKERR (w : Word) (s : State) :
    (s.afterCtrl w).statusLOCKERR = (s.statusLOCKERR || (s.statusBUSY && fieldSTART w)) := by
  cases hb : s.statusBUSY
  · cases hw : fieldSTART w
    · simp [afterCtrl_noStart hb hw]
    · simp [afterCtrl_start hb hw]
  · simp [afterCtrl_busy hb]

/-- A full-strobe register write other than CTRL sets LOCKERR exactly if the register is locked (R27, R68). -/
theorem writeReg_sets_lockError {s : State} (h : s.statusLOCKERR = false) (r : Reg) (w : Word) :
    (s.writeReg r w).statusLOCKERR = true ↔ s.statusBUSY = true ∧ r ∈ lockedRegs := by
  cases r with
  | id | version | caps | ctrl | status | perfCycles => simp [State.writeReg, lockedRegs, h]
  | args | baseLen | expLen | modLen | outLen =>
    cases hb : s.statusBUSY
    · simp [State.writeReg, lockedWrite_idle hb, h]
    · simp [State.writeReg, lockedWrite_busy hb, lockedRegs]

/-- A write transfer sets LOCKERR exactly if it is dropped by the lock (R27, R68). -/
theorem afterWrite_sets_lockError {s : State} (h : s.statusLOCKERR = false) (off : Offset) (w : Word) (strb : Strobe) :
    (s.afterWrite off w strb).statusLOCKERR = true ↔ s.statusBUSY = true ∧
      ((strb = 0xF#4 ∧ target off = .reg .ctrl ∧ fieldSTART w = true) ∨
       (strb = 0xF#4 ∧ ∃ r ∈ lockedRegs, target off = .reg r) ∨ ∃ X o, target off = .window X o) := by
  cases htarget : target off with
  | reserved => simp [afterWrite_reserved htarget, h]
  | window X o =>
    rw [afterWrite_window htarget]
    cases hb : s.statusBUSY
    · simp [hostWriteWindow_idle hb, h]
    · simp [hostWriteWindow_busy hb]
  | reg r =>
    by_cases hstrb : strb = 0xF#4
    · by_cases hr : r = .ctrl
      · subst hr
        simp [afterWrite_ctrl htarget, hstrb, afterCtrl_statusLOCKERR, h, lockedRegs]
      · simp [afterWrite_reg htarget hr, hstrb, hr, writeReg_sets_lockError h]
    · have hpartial : s.afterWrite off w strb = s := by
        by_cases hr : r = .ctrl
        · rw [afterWrite_ctrl (hr ▸ htarget), if_neg hstrb]
        · rw [afterWrite_reg htarget hr, if_neg hstrb]
      simp [hpartial, h, hstrb]

/-- No move but a write transfer sets LOCKERR (R27). -/
theorem afterEvent_keeps_lockError {e : Event} {s : State} (h : s.statusLOCKERR = false)
    (he : ∀ off w strb, e ≠ .write off w strb) : (s.afterEvent e).statusLOCKERR = false := by
  cases e with
  | read off => exact h
  | write off w strb => exact absurd rfl (he off w strb)
  | engineInternal => simpa [State.afterEvent] using h
  | engineComplete =>
    simp only [State.afterEvent]
    split
    · rw [complete_frame]
      exact h
    · exact h
  | reset => rfl

/-- Settles O11: LOCKERR by the target of a write, and no other move sets it. -/
theorem lockErrorSetExactlyByDroppedWrites : Obligations.LockErrorSetExactlyByDroppedWrites := by
  refine ⟨fun s off w htarget => hostWrite_reg_full htarget (by decide) w s, fun e s t ht h => ?_⟩
  cases (handleEvent_eq e s).symm.trans ht
  by_cases he : ∃ off w strb, e = .write off w strb
  · obtain ⟨off, w, strb, rfl⟩ := he
    rw [State.afterEvent, afterWrite_sets_lockError h]
    constructor
    · rintro ⟨hb, hdropped⟩
      exact ⟨hb, off, w, strb, rfl, hdropped⟩
    · rintro ⟨hb, off', w', strb', heq, hdropped⟩
      cases heq
      exact ⟨hb, hdropped⟩
  · rw [afterEvent_keeps_lockError h fun off w strb heq => he ⟨off, w, strb, heq⟩]
    refine iff_of_false Bool.false_ne_true ?_
    rintro ⟨-, off, w, strb, heq, -⟩
    exact he ⟨off, w, strb, heq⟩

/-! ## PERF_CYCLES -/

/-- The count saturates at 0xFFFFFFFF (R34). -/
theorem toNat_saturatingCount (w : Word) (k : Nat) : (saturatingCount w k).toNat = min (w.toNat + k) 0xFFFFFFFF := by
  unfold saturatingCount
  split
  · next h => rw [BitVec.toNat_ofNat, Nat.mod_eq_of_lt h]; omega
  · next h => rw [show (0xFFFFFFFF#32).toNat = 0xFFFFFFFF from rfl]; omega

/-- The clock never lowers PERF_CYCLES (R34). -/
theorem perfCycles_le_tick (s : State) : s.perfCycles.toNat ≤ s.tick.perfCycles.toNat := by
  unfold State.tick
  split
  · have := s.perfCycles.isLt
    rw [toNat_saturatingCount]
    omega
  · exact Nat.le_refl _

/-- No move but a reset and an acceptance changes PERF_CYCLES (R34). -/
theorem afterEvent_perfCycles {e : Event} {s : State} (he : e ≠ .reset)
    (h : s.statusBUSY = true ∨ (s.afterEvent e).statusBUSY = false) : (s.afterEvent e).perfCycles = s.perfCycles := by
  cases e with
  | read off => rfl
  | write off w strb =>
    simp only [State.afterEvent] at h ⊢
    cases hb : s.statusBUSY
    · obtain ⟨-, -, -, heq⟩ | heq := afterWrite_idle hb off w strb
      · simp [hb, heq] at h
      · rw [heq]
    · rw [afterWrite_busy hb]
  | engineInternal => simp [State.afterEvent]
  | engineComplete =>
    simp only [State.afterEvent]
    split
    · rw [complete_frame]; rfl
    · rfl
  | reset => exact absurd rfl he

/-- PERF_CYCLES over the clock and the next event, other than a reset (R34). -/
theorem tick_afterEvent_perfCycles {e : Event} (he : e ≠ .reset) (s : State) :
    (s.statusBUSY = true → s.perfCycles.toNat ≤ (s.tick.afterEvent e).perfCycles.toNat) ∧
    (s.statusBUSY = false → (s.tick.afterEvent e).statusBUSY = false →
      (s.tick.afterEvent e).perfCycles = s.perfCycles) ∧
    (s.statusBUSY = false → (s.tick.afterEvent e).statusBUSY = true → (s.tick.afterEvent e).perfCycles = 0#32) := by
  refine ⟨fun hb => ?_, fun hb ht => ?_, fun hb ht => ?_⟩
  · rw [afterEvent_perfCycles he (.inl (by simpa using hb))]
    exact perfCycles_le_tick s
  · rw [tick_idle s hb] at ht ⊢
    exact afterEvent_perfCycles he (.inr ht)
  · rw [tick_idle s hb] at ht ⊢
    obtain ⟨off, w, -, -, -, heq⟩ := afterEvent_starts hb ht
    rw [heq, accept_perfCycles]

/-- Settles O22: a step is the clock followed by one event. -/
theorem perfCyclesCountsWhileBusy : Obligations.PerfCyclesCountsWhileBusy := by
  refine ⟨fun s t hstep hreset => ?_, fun s w strb => ?_, fun s off hoff => ?_, toNat_saturatingCount⟩
  · cases hin : s.inputs with
    | nil =>
      cases (step_nil hin).symm.trans hstep
      exact tick_afterEvent_perfCycles (by decide) s
    | cons e rest =>
      cases (step_cons hin).symm.trans hstep
      have he : e ≠ .reset := fun h => hreset rest (h ▸ hin)
      exact tick_afterEvent_perfCycles he (s.withInputs rest)
  · have htarget : target 0x030#15 = .reg .perfCycles := by decide
    rw [hostWrite_eq, afterWrite_reg htarget (by decide)]
    exact congrArg _ (ite_self s)
  · have htarget : target off = .reg .perfCycles := by rw [target_eq, hoff]; rfl
    exact readWord_reg htarget s

/-! ## irq -/

/-- After a completion irq is IE (R38, R226). -/
theorem complete_irq (o : CmdOutcome) (s : State) : (complete o s).irq = s.ctrlIE := by
  rw [complete_frame]
  exact Bool.and_true _

/-- Settles O48: irq after each move that changes IE or DONE. -/
theorem irqIsALevel : Obligations.IrqIsALevel := by
  refine ⟨fun s => rfl, rfl, fun i s t hb h => ?_, fun i s t hb h => ?_, fun s t off w htarget hb hw h => ?_,
    fun s t off w htarget hw h => ?_⟩
  · cases (exec_eq i s).symm.trans h
    rw [if_pos hb, complete_irq]
  · cases (exec_eq i s).symm.trans h
    simp [hb, State.irq]
  · cases (hostWrite_ctrl_full htarget w s).symm.trans h
    rw [afterCtrl_noStart hb hw]
    rfl
  · cases (hostWrite_reg_full htarget (by decide) w s).symm.trans h
    simp [State.irq, State.writeReg, hw]

/-! ## The frame of a completion -/

/-- An error completion changes no buffer byte (R125). -/
theorem readByte_complete_error (c : Cause) (s : State) (Y : Buf) (k : Nat) :
    (complete (.error c) s).readByte Y k = s.readByte Y k := rfl

/-- A result-computing command completes with an error, or with its exported result, which fits BUF_OUT (R113, R123). -/
theorem execute_error_or_write (op : ArithOp) (s : State) : (∃ c, execute op s = .error c) ∨
    ∃ r, r = compute op (s.importValue .base) (secondOperand op s) (s.importValue .mod) ∧
      execute op s = .write (exportBytes r) ∧ exportLength r ≤ s.maxBytes := by
  have hfits := execute_fits op s
  obtain ⟨c, -, heq⟩ | ⟨-, c, -, heq⟩ | ⟨-, -, heq⟩ := execute_cases op s
  · exact .inl ⟨c, heq⟩
  · exact .inl ⟨c, heq⟩
  · rw [heq] at hfits
    exact .inr ⟨_, rfl, heq, by simpa [CmdOutcome.Fits] using hfits⟩

/-- Settles O43: an error completion changes no byte and no length, and a successful one the exported bytes alone. -/
theorem arithmeticCommandFrame : Obligations.ArithmeticCommandFrame := by
  intro op ie s t hb hlegal h
  cases (exec_arith op ie s hb).symm.trans h
  refine ⟨by rw [complete_frame], ?_⟩
  obtain ⟨c, heq⟩ | ⟨r, hr, heq, hfits⟩ := execute_error_or_write op s
  · rw [heq]
    exact ⟨fun Y i _ => readByte_complete_error c s Y i, fun _ => rfl⟩
  · rw [heq, complete_write, ← hr]
    refine ⟨fun Y i hout => ?_, fun hcode => absurd rfl hcode⟩
    rw [readByte_written hlegal hfits, if_neg (hout rfl)]

end Sys2Proof.Machine

/-! PROOFS. The transfers of 20_memory.md: what a read returns by target, the lock, partial strobes, the lanes of a window
transfer, and that reads and internal steps change no word a later read returns (R62 to R70, R81). -/

namespace Sys2Proof.Machine

/-! ## Address decoding -/

/-- Bits 1:0 of an offset select nothing (R63). -/
theorem target_aligned (off : Offset) : target (off &&& 0x7FFC#15) = target off := by
  rw [target, target, BitVec.and_assoc, BitVec.and_self]

/-- Settles O14: reads and writes see an offset through its target alone. -/
theorem alignmentIsIgnored : Obligations.AlignmentIsIgnored := by
  intro s off
  refine ⟨?_, fun w strb => ?_, fun w strb => ⟨_, hostWrite_eq off w strb s⟩⟩
  · simp only [State.hostRead, State.readWord, target_aligned]
  · simp only [hostWrite, target_aligned]

/-- Settles O5: every event answers a next state, and the two outputs are constants. -/
theorem noStepEverStops : Obligations.NoStepEverStops :=
  fun s => ⟨⟨_, step_eq s⟩, rfl, rfl⟩

/-! ## Register writes -/

/-- A write outside the windows counts with the full strobe alone (R66). -/
theorem afterWrite_partial {off : Offset} (h : ∀ X o, target off ≠ .window X o) {strb : Strobe} (hstrb : strb ≠ 0xF#4)
    (w : Word) (s : State) : s.afterWrite off w strb = s := by
  cases htarget : target off with
  | reserved => exact afterWrite_reserved htarget w strb s
  | window X o => exact absurd htarget (h X o)
  | reg r =>
    by_cases hr : r = .ctrl
    · rw [afterWrite_ctrl (hr ▸ htarget), if_neg hstrb]
    · rw [afterWrite_reg htarget hr, if_neg hstrb]

/-- Settles O15: no offset below 0x1000 selects a window. -/
theorem partialStrobeRegisterWriteIgnored : Obligations.PartialStrobeRegisterWriteIgnored := by
  intro s off w strb hlow hstrb
  rw [hostWrite_eq, afterWrite_partial (target_low hlow) hstrb]

/-- The registers that take no write (R22 to R24, R34). -/
theorem writeReg_readOnly {r : Reg} (h : r ∈ [Reg.id, .version, .caps, .perfCycles]) (w : Word) (s : State) :
    s.writeReg r w = s := by
  fin_cases h <;> rfl

/-- A write to a locked register while BUSY = 1 is dropped (R68). -/
theorem writeReg_locked {s : State} (hb : s.statusBUSY = true) {r : Reg} (h : r ∈ lockedRegs) (w : Word) :
    s.writeReg r w = s.lockError := by
  fin_cases h <;> simp only [State.writeReg, lockedWrite_busy hb]

/-! ## Reads, by target -/

/-- A read of a window's offset (R62). -/
theorem readWord_window {off : Offset} {X : Buf} {o : Nat} (h : target off = .window X o) (s : State) :
    s.readWord off = s.readWindow X o := by
  simp [State.readWord, h]

/-- A window reads 0 while BUSY = 1 (R68). -/
theorem readWindow_busy {s : State} (h : s.statusBUSY = true) (X : Buf) (o : Nat) : s.readWindow X o = 0#32 := if_pos h

/-- A window word while BUSY = 0 (R62). -/
theorem readWindow_idle {s : State} (h : s.statusBUSY = false) (X : Buf) (o : Nat) : s.readWindow X o =
    s.readByte X (o + 3) ++ s.readByte X (o + 2) ++ s.readByte X (o + 1) ++ s.readByte X o := by
  simp [State.readWindow, h]

/-- BUSY is seen by reads of the windows and of STATUS alone (R68, R69). -/
theorem readWord_withBusy {off : Offset} (hwindow : ∀ X o, target off ≠ .window X o) (hstatus : target off ≠ .reg .status)
    (busy : Bool) (s : State) : { s with statusBUSY := busy }.readWord off = s.readWord off := by
  cases htarget : target off with
  | reserved => rw [readWord_reserved htarget, readWord_reserved htarget]
  | window X o => exact absurd htarget (hwindow X o)
  | reg r =>
    rw [readWord_reg htarget, readWord_reg htarget]
    cases r with
    | status => exact absurd htarget hstatus
    | id | version | caps | ctrl | args | baseLen | expLen | modLen | outLen | perfCycles => rfl

/-- The STATUS word of a running engine that meets the invariant: DONE, CODE and CAUSE are 0 (R69). -/
theorem statusWord_running {s : State} (h : s.Inv) (hb : s.statusBUSY = true) :
    s.statusWord = if s.statusLOCKERR then 0x00000005#32 else 0x00000001#32 := by
  obtain ⟨hdone, hcode, hcause⟩ := h.running hb
  rw [State.statusWord, hb, hdone, hcode, hcause]
  cases s.statusLOCKERR <;> rfl

/-! ## The lock -/

/-- Settles O12: what a transfer does while BUSY = 1, by target. -/
theorem lockWhileBusy : Obligations.LockWhileBusy := by
  intro s hb
  refine ⟨fun off X o htarget => ⟨?_, fun w strb => ?_⟩, fun off r hr htarget w => ?_, fun off htarget w => ?_,
    fun off htarget w => hostWrite_reg_full htarget (by decide) w s, fun off h w strb => ?_,
    fun off hwindow hstatus => (readWord_withBusy hwindow hstatus false s).symm, fun off htarget => ?_⟩
  · rw [readWord_window htarget, readWindow_busy hb]
  · rw [hostWrite_eq, afterWrite_window htarget, hostWriteWindow_busy hb]
    rfl
  · have hne : r ≠ .ctrl := fun heq => absurd hr (heq ▸ by decide)
    rw [hostWrite_reg_full htarget hne, writeReg_locked hb hr]
    rfl
  · rw [hostWrite_ctrl_full htarget, afterCtrl_busy hb]
    rfl
  · rw [hostWrite_eq]
    obtain htarget | ⟨r, hr, htarget⟩ := h
    · rw [afterWrite_reserved htarget]
    · have hne : r ≠ .ctrl := fun heq => absurd hr (heq ▸ by decide)
      rw [afterWrite_reg htarget hne, writeReg_readOnly hr, ite_self]
  · have hread : s.readWord off = s.statusWord := readWord_reg htarget s
    rw [hread]
    exact ⟨(statusWord_bits s 0 (by decide)).trans hb, statusWord_bits s 2 (by decide),
      fun hinv => statusWord_running hinv hb⟩

/-- Settles O13: a move that leaves a command running changes no register or byte that Execute reads. -/
theorem runningCommandInputsAreLocked : Obligations.RunningCommandInputsAreLocked := by
  intro e s t h hs ht
  cases (handleEvent_eq e s).symm.trans h
  rw [afterEvent_running hs ht]
  exact ⟨rfl, rfl, fun op => execute_congr op rfl rfl rfl rfl rfl rfl rfl rfl⟩

/-! ## Window lanes -/

/-- Lanes written in turn: each byte whose lane is in the list, whose strobe is 1 and that storage backs takes its lane's
value (R62, R65, R67). -/
theorem readByte_writeLanes {s : State} (hl : Config.legalMaxBytes s.maxBytes = true) (X Y : Buf) (o : Nat) (w : Word)
    (strb : Strobe) (lanes : List Nat) (k : Nat) :
    (lanes.foldl (State.writeLane X o w strb) s).readByte Y k =
      if Y = X ∧ o ≤ k ∧ k - o ∈ lanes ∧ strb.getLsbD (k - o) = true ∧ k < s.maxBytes then lane w (k - o)
      else s.readByte Y k := by
  induction lanes generalizing s with
  | nil => simp
  | cons j lanes ih =>
    have hmax : (State.writeLane X o w strb s j).maxBytes = s.maxBytes := by rw [writeLane_eq]
    rw [List.foldl_cons, ih (hmax ▸ hl), readByte_writeLane hl, hmax]
    by_cases hk : o ≤ k
    · have hj : k = o + j ↔ k - o = j := by omega
      by_cases heq : k - o = j
      · subst heq
        rw [← ite_or]
        refine if_congr ?_ rfl rfl
        simp only [hj, hk, List.mem_cons, true_and, true_or]
        tauto
      · simp [hk, hj, heq]
    · have hj : k ≠ o + j := by omega
      simp [hk, hj]

/-- What a byte reads as after a window write (R62, R65, R67). -/
theorem readByte_writeWindow {s : State} (hl : Config.legalMaxBytes s.maxBytes = true) (X Y : Buf) (o : Nat) (w : Word)
    (strb : Strobe) (k : Nat) :
    (s.writeWindow X o w strb).readByte Y k =
      if Y = X ∧ o ≤ k ∧ k < o + 4 ∧ strb.getLsbD (k - o) = true ∧ k < s.maxBytes then lane w (k - o)
      else s.readByte Y k := by
  have hlanes : o ≤ k → (k - o ∈ [0, 1, 2, 3] ↔ k < o + 4) := by
    simp only [List.mem_cons, List.not_mem_nil, or_false]
    omega
  rw [State.writeWindow, readByte_writeLanes hl]
  exact if_congr (and_congr_right' (and_congr_right fun hk => and_congr_left' (hlanes hk))) rfl rfl

/-- Lane `j` of a window word is the byte `o + j` (R62). -/
theorem lane_readWindow {s : State} (h : s.statusBUSY = false) (X : Buf) (o : Nat) {j : Nat} (hj : j < 4) :
    lane (s.readWindow X o) j = s.readByte X (o + j) := by
  rw [readWindow_idle h, lane_word _ _ _ _ _ hj]
  interval_cases j <;> rfl

/-- A byte at or above MAX_BYTES reads 0 (R36, R67). -/
theorem readByte_unbacked {s : State} {i : Nat} (h : s.maxBytes ≤ i) (X : Buf) : s.readByte X i = 0#8 :=
  if_neg (by omega)

/-- Settles O16: the lanes of a window read, and the four lanes of a window write in turn. -/
theorem windowTransferMovesBytes : Obligations.WindowTransferMovesBytes := by
  intro s off X o hidle hl htarget
  obtain ⟨hlt, hmod, haddr⟩ := target_window htarget
  refine ⟨⟨hmod, hlt, haddr⟩, fun j hj => ?_, fun w strb => ⟨s.writeWindow X o w strb, ?_, writeWindow_eq X o w strb s,
    fun Y i => readByte_writeWindow hl X Y o w strb i⟩⟩
  · rw [readWord_window htarget, lane_readWindow hidle X o hj]
    split
    · rfl
    · next hout => exact readByte_unbacked (by omega) X
  · rw [hostWrite_eq, afterWrite_window htarget, hostWriteWindow_idle hidle]

/-! ## Offsets no storage backs -/

/-- A window word at or above MAX_BYTES reads 0 (R67). -/
theorem readWindow_unbacked {s : State} {o : Nat} (h : s.maxBytes ≤ o) (X : Buf) : s.readWindow X o = 0#32 := by
  cases hb : s.statusBUSY
  · rw [readWindow_idle hb]
    repeat rw [readByte_unbacked (by omega)]
    rfl
  · exact readWindow_busy hb X o

/-- A lane at or above MAX_BYTES is dropped (R67). -/
theorem writeLane_unbacked {s : State} {o : Nat} (h : s.maxBytes ≤ o) (X : Buf) (w : Word) (strb : Strobe) (j : Nat) :
    State.writeLane X o w strb s j = s :=
  if_neg fun hj => by omega

/-- A window write at or above MAX_BYTES changes nothing (R67). -/
theorem writeWindow_unbacked {s : State} {o : Nat} (h : s.maxBytes ≤ o) (X : Buf) (w : Word) (strb : Strobe) :
    s.writeWindow X o w strb = s := by
  simp only [State.writeWindow, List.foldl_cons, List.foldl_nil, writeLane_unbacked h]

/-- Settles O17: no byte of the word is backed, and the lock comes before the lanes. -/
theorem unbackedWindowOffsets : Obligations.UnbackedWindowOffsets := by
  intro s off X o htarget hout
  refine ⟨?_, fun hb w strb => ?_, fun hb w strb => ?_⟩
  · rw [readWord_window htarget, readWindow_unbacked hout]
  · rw [hostWrite_eq, afterWrite_window htarget, hostWriteWindow_idle hb, writeWindow_unbacked hout]
  · rw [hostWrite_eq, afterWrite_window htarget, hostWriteWindow_busy hb]
    rfl

/-! ## Reads have no side effect -/

section Reads

variable {off : Offset} (hoff : target off ≠ .reg .perfCycles)

include hoff

/-- The clock, the working registers, PRDATA and the events to come are seen by no read but PERF_CYCLES's (R40, R70, R160). -/
theorem readWord_of_frame {s t : State} (h : t = { s with
      inputs := t.inputs, perfCycles := t.perfCycles, clockDraws := t.clockDraws
      datapath := t.datapath, prdata := t.prdata }) : t.readWord off = s.readWord off := by
  rw [h]
  cases htarget : target off with
  | reserved => rw [readWord_reserved htarget, readWord_reserved htarget]
  | window X o =>
    rw [readWord_window htarget, readWord_window htarget]
    rfl
  | reg r =>
    rw [readWord_reg htarget, readWord_reg htarget]
    cases r with
    | perfCycles => exact absurd htarget hoff
    | id | version | caps | ctrl | status | args | baseLen | expLen | modLen | outLen => rfl

/-- The clock that runs before an event changes no word but PERF_CYCLES. -/
theorem readWord_tick (s : State) (rest : List Event) : (s.withInputs rest).tick.readWord off = s.readWord off := by
  apply readWord_of_frame hoff
  rw [tick_eq]
  rfl

/-- A read or an internal step changes no word but PERF_CYCLES (R70, R112). -/
theorem readWord_afterEvent {e : Event} (he : e = .engineInternal ∨ ∃ o, e = .read o) (s : State) :
    (s.afterEvent e).readWord off = s.readWord off := by
  apply readWord_of_frame hoff
  obtain rfl | ⟨o, rfl⟩ := he
  · simp only [State.afterEvent]
    rw [internalStep_eq]
  · rfl

/-- After reads and internal steps a read returns the word its offset had at the start (R70). -/
theorem run_reads_prdata (between rest : List Event) (hbetween : ∀ e ∈ between, e = .engineInternal ∨ ∃ o, e = .read o)
    {s u : State} (hs : s.inputs = between ++ .read off :: rest)
    (hu : Host.Core.run Sys2Proof.core (between.length + 1) s = .next u) : u.prdata = s.readWord off := by
  induction between generalizing s with
  | nil =>
    cases (run_succ 0 (step_cons hs)).symm.trans hu
    exact readWord_tick hoff s rest
  | cons e between ih =>
    have he := hbetween e List.mem_cons_self
    rw [List.length_cons, run_succ _ (step_cons hs)] at hu
    rw [ih (fun e h => hbetween e (List.mem_cons_of_mem _ h)) ?_ hu, readWord_afterEvent hoff he, readWord_tick hoff]
    obtain rfl | ⟨o, rfl⟩ := he <;> simp [State.afterEvent]

end Reads

/-- Settles O21: both reads return what the offset read before the first one. -/
theorem readsHaveNoSideEffect : Obligations.ReadsHaveNoSideEffect := by
  refine ⟨fun s off rest hs => ⟨_, step_cons hs, rfl, fun hoff => readWord_tick hoff s rest⟩, ?_⟩
  intro s t u off between rest hbetween hs hoff ht hu
  have hfirst : t.prdata = s.readWord off := run_reads_prdata hoff [] _ nofun hs ht
  have hall : ∀ e ∈ Event.read off :: between, e = .engineInternal ∨ ∃ o, e = .read o :=
    List.forall_mem_cons.2 ⟨.inr ⟨off, rfl⟩, hbetween⟩
  rw [hfirst]
  exact run_reads_prdata hoff (.read off :: between) rest hall hs hu

end Sys2Proof.Machine

/-! PROOFS. Import and Export as base-256 numbers, most significant byte first (R75, R76), and the bytes a successful
completion writes (R77). -/

namespace Sys2Proof.Machine

/-! ## Import -/

/-- Import as a sum over the indices below X_LEN (R75). -/
theorem importValue_eq_sum (s : State) (X : Buf) : s.importValue X =
    ∑ i ∈ Finset.range (s.lenOf X), (s.readByte X i).toNat * 256 ^ (s.lenOf X - 1 - i) := rfl

/-- Leading zero bytes do not change the imported value (R75). -/
theorem importValue_leadingZeros {s : State} {X : Buf} {z n : Nat} (hlen : s.lenOf X = z + n)
    (hzero : ∀ i, i < z → s.readByte X i = 0#8) :
    s.importValue X = ∑ i ∈ Finset.range n, (s.readByte X (z + i)).toNat * 256 ^ (n - 1 - i) := by
  rw [importValue_eq_sum, hlen, Finset.sum_range_add]
  have hlead : ∑ i ∈ Finset.range z, (s.readByte X i).toNat * 256 ^ (z + n - 1 - i) = 0 :=
    Finset.sum_eq_zero fun i hi => by rw [hzero i (Finset.mem_range.1 hi)]; exact Nat.zero_mul _
  rw [hlead, Nat.zero_add]
  refine Finset.sum_congr rfl fun i _ => ?_
  rw [show z + n - 1 - (z + i) = n - 1 - i by omega]

/-- Settles O23: Import is a big-endian sum, whose leading zero terms drop out. -/
theorem importIsBigEndian : Obligations.ImportIsBigEndian := by
  refine ⟨importValue_eq_sum, fun s X hlen => ?_, fun s t X z hlen hzero hbytes => ?_⟩
  · rw [importValue_eq_sum, hlen, Finset.sum_range_zero]
  · rw [importValue_leadingZeros hlen hzero, importValue_eq_sum]
    refine Finset.sum_congr rfl fun i hi => ?_
    rw [hbytes i (Finset.mem_range.1 hi)]

/-! ## Export -/

/-- The byte of Export(r) with index `i` (R76). -/
theorem getD_exportBytes {r i : Nat} (h : i < exportLength r) :
    (exportBytes r).getD i 0#8 = BitVec.ofNat 8 (r / 256 ^ (exportLength r - 1 - i) % 256) := by
  simp [exportBytes, List.getD, h]

/-- The exported bytes of a nonzero result are no more than it needs (R76). -/
theorem pow_exportLength_sub_one_le {r : Nat} (h : r ≠ 0) : 256 ^ (exportLength r - 1) ≤ r := by
  have hbits : 8 * (exportLength r - 1) ≤ bitlen r - 1 := by unfold exportLength; omega
  calc 256 ^ (exportLength r - 1) = 2 ^ (8 * (exportLength r - 1)) := (Nat.pow_mul 2 8 _).symm
    _ ≤ 2 ^ (bitlen r - 1) := Nat.pow_le_pow_right (by decide) hbits
    _ ≤ r := two_pow_bitlen_sub_one_le h

/-- The first byte of a nonzero result is not 0 (R76). -/
theorem exportBytes_head_ne_zero {r : Nat} (h : r ≠ 0) : (exportBytes r).getD 0 0#8 ≠ 0#8 := by
  have hlen := exportLength_pos r
  have hlo : 1 ≤ r / 256 ^ (exportLength r - 1) :=
    (Nat.one_le_div_iff (by positivity)).2 (pow_exportLength_sub_one_le h)
  have hhi : r / 256 ^ (exportLength r - 1) < 256 := by
    rw [Nat.div_lt_iff_lt_mul (by positivity), ← Nat.pow_succ', Nat.succ_eq_add_one, Nat.sub_add_cancel hlen]
    exact lt_pow_exportLength r
  rw [getD_exportBytes (by omega), Nat.sub_zero]
  intro hzero
  have hmod : r / 256 ^ (exportLength r - 1) % 256 = 0 := by simpa using congrArg BitVec.toNat hzero
  omega

/-- Settles O24: the bytes by definition, and the bounds of a nonzero result. -/
theorem exportIsCanonical : Obligations.ExportIsCanonical := by
  intro r
  refine ⟨length_exportBytes r, rfl, fun i => getD_exportBytes, fun h => ?_, fun h =>
    ⟨exportBytes_head_ne_zero h, pow_exportLength_sub_one_le h, lt_pow_exportLength r⟩⟩
  subst h
  decide

/-! ## Import of an exported result -/

/-- The n low base-256 digits of a number, most significant first, sum up to it modulo 256^n. -/
theorem sum_digits (r n : Nat) :
    ∑ i ∈ Finset.range n, r / 256 ^ (n - 1 - i) % 256 * 256 ^ (n - 1 - i) = r % 256 ^ n := by
  rw [Finset.sum_range_reflect fun i => r / 256 ^ i % 256 * 256 ^ i]
  induction n with
  | zero => simp [Nat.mod_one]
  | succ n ih => rw [Finset.sum_range_succ, ih, Nat.mod_pow_succ, Nat.mul_comm (256 ^ n)]

/-- Writing bytes changes no length register. -/
theorem lenOf_writeBytes (X Y : Buf) (i : Nat) (bytes : List Byte) (s : State) :
    (s.writeBytes X i bytes).lenOf Y = s.lenOf Y := by
  cases Y <;> rfl

/-- Settles O25: the leading zero bytes drop out, and the digits of the result sum up to it. -/
theorem importInvertsExport : Obligations.ImportInvertsExport := by
  intro s X r z hl hfit hlen
  have hbyte : ∀ k, k < z + exportLength r →
      (s.writeBytes X 0 (List.replicate z 0#8 ++ exportBytes r)).readByte X k =
        (List.replicate z 0#8 ++ exportBytes r).getD k 0#8 := by
    intro k hk
    rw [readByte_writeBytes hl X X 0 k _ (by simpa using hfit), if_pos ⟨rfl, by simpa using hk⟩, Nat.sub_zero]
  rw [importValue_leadingZeros (n := exportLength r) (z := z)]
  · calc ∑ i ∈ Finset.range (exportLength r), ((s.writeBytes X 0 (List.replicate z 0#8 ++ exportBytes r)).readByte X
            (z + i)).toNat * 256 ^ (exportLength r - 1 - i)
        = ∑ i ∈ Finset.range (exportLength r),
            r / 256 ^ (exportLength r - 1 - i) % 256 * 256 ^ (exportLength r - 1 - i) := by
          refine Finset.sum_congr rfl fun i hi => ?_
          have hi := Finset.mem_range.1 hi
          rw [hbyte _ (by omega), List.getD_append_right _ _ _ _ (by simp), List.length_replicate,
            Nat.add_sub_cancel_left, getD_exportBytes hi, BitVec.toNat_ofNat, Nat.mod_mod]
      _ = r % 256 ^ exportLength r := sum_digits r _
      _ = r := Nat.mod_eq_of_lt (lt_pow_exportLength r)
  · rw [lenOf_writeBytes, hlen]
  · intro i hi
    rw [hbyte i (by omega), List.getD_append _ _ _ _ (by simpa using hi)]
    simp [hi]

/-! ## The bytes of a successful completion -/

/-- Settles O44: the completion of a normal run writes the exported result, which fits its window and OUT_LEN. -/
theorem outputBytesAreExported : Obligations.OutputBytesAreExported := by
  intro op ie s hrun hl
  have hmod : s.modLen.toNat ≤ s.maxBytes := hrun.lengths .mod (by decide) (by cases op <;> rfl)
  have hlen := result_length_le op s hrun.modulus (s.importValue .base) (secondOperand op s)
  have hfit := hlen.trans hmod
  have hlegal := legal_le hl
  refine ⟨_, _, rfl, (exec_arith op ie s hrun.busy).trans (congrArg _ hrun.complete_eq), ?_, hlen, hrun.capacity, hfit,
    fun i hi => ?_, fun i hi => ?_⟩
  · exact Nat.mod_eq_of_lt (by omega)
  · rw [readByte_written hl hfit, if_pos ⟨rfl, hi⟩]
  · rw [readByte_written hl hfit, if_neg (by omega)]

end Sys2Proof.Machine

/-! PROOFS. Command words and their decoding (R90 to R92, R97), the worked words of R100, and the transfers of a host
program's OPND (R99). -/

namespace Sys2Proof.Machine

/-! ## Decoding -/

/-- A word with START = 1 decodes by its CMD and IE (R91). -/
theorem decode_start {w : Word} (h : fieldSTART w = true) : decode w = decodeCMD (fieldCMD w) (fieldIE w) := if_pos h

/-- A word with START = 0 is no command (R91). -/
theorem decode_noStart {w : Word} (h : fieldSTART w = false) : decode w = .error .notACommand := by
  simp [decode, h]

/-- A CMD and an IE value decode to a command exactly when they are its opcode and its IE (R91). -/
theorem decodeCMD_eq_ok {cmd : BitVec 8} {ie : Bool} {i : Instr} :
    decodeCMD cmd ie = .ok i ↔ cmd = i.opcode ∧ ie = i.ie := by
  constructor
  · intro h
    unfold decodeCMD at h
    repeat' split at h
    all_goals cases h
    all_goals exact ⟨‹_›, rfl⟩
  · rintro ⟨rfl, rfl⟩
    cases i <;> rfl

/-- A word decodes to a command exactly when START is 1 and CMD and IE are the command's (R91). -/
theorem decode_eq_ok {w : Word} {i : Instr} :
    decode w = .ok i ↔ fieldCMD w = i.opcode ∧ fieldIE w = i.ie ∧ fieldSTART w = true := by
  cases hw : fieldSTART w
  · simp [decode_noStart hw]
  · simp [decode_start hw, decodeCMD_eq_ok]

/-- Each of the five legal opcodes is that of a command, with either IE (R91). -/
theorem exists_opcode_eq {cmd : BitVec 8} (h : cmd ∈ legalOpcodes) (ie : Bool) :
    ∃ i : Instr, i.opcode = cmd ∧ i.ie = ie := by
  fin_cases h
  · exact ⟨.modexp ie, rfl, rfl⟩
  · exact ⟨.modmul ie, rfl, rfl⟩
  · exact ⟨.modred ie, rfl, rfl⟩
  · exact ⟨.montmul ie, rfl, rfl⟩
  · exact ⟨.zeroize ie, rfl, rfl⟩

/-- Any other CMD value is the illegal command (R92). -/
theorem decodeCMD_illegal {cmd : BitVec 8} (h : cmd ∉ legalOpcodes) (ie : Bool) :
    decodeCMD cmd ie = .error (.illegalCommand cmd ie) := by
  simp only [legalOpcodes, List.mem_cons, List.not_mem_nil, or_false, not_or] at h
  obtain ⟨hmodexp, hmodmul, hmodred, hmontmul, hzeroize⟩ := h
  simp only [decodeCMD, hmodexp, hmodmul, hmodred, hmontmul, hzeroize, if_false]

/-! ## Encoding -/

/-- A CTRL word determines the fields it was built from (R91). -/
theorem ctrlWord_inj {cmd cmd' : BitVec 8} {ie ie' start start' : Bool} :
    ctrlWord cmd ie start = ctrlWord cmd' ie' start' ↔ cmd = cmd' ∧ ie = ie' ∧ start = start' := by
  refine ⟨fun h => ⟨?_, ?_, ?_⟩, fun ⟨hcmd, hie, hstart⟩ => by rw [hcmd, hie, hstart]⟩
  · simpa using congrArg fieldCMD h
  · simpa using congrArg fieldIE h
  · simpa using congrArg fieldSTART h

/-- The fields of a word, put back into a CTRL word, are the word less its reserved bits (R91, R97). -/
theorem ctrlWord_allFields (w : Word) :
    ctrlWord (fieldCMD w) (fieldIE w) (fieldSTART w) = w &&& 0x0000FF03#32 := by
  apply BitVec.eq_of_getLsbD_eq
  intro i hi
  simp only [ctrlWord, fieldCMD, fieldIE, fieldSTART, BitVec.getLsbD_append, BitVec.getLsbD_ofBool,
    BitVec.getLsbD_extractLsb', BitVec.getLsbD_and]
  interval_cases i <;> simp

/-- Settles O2: a word decodes by its three fields, and the mask keeps those fields alone. -/
theorem commandWordsDecodeExactly : Obligations.CommandWordsDecodeExactly := by
  refine ⟨fun i => decode_eq_ok.2 ?_, fun w i => ?_⟩
  · simp [encode]
  · rw [decode_eq_ok, ← ctrlWord_allFields, encode, ctrlWord_inj]

/-- Settles O3: START decides first, then membership of CMD in the five opcodes. -/
theorem everyCmdValueIsLegalOrIllegal : Obligations.EveryCmdValueIsLegalOrIllegal := by
  refine fun w => ⟨fun hstart hlegal => ?_, fun hstart hillegal => ?_, decode_noStart⟩
  · obtain ⟨i, hcmd, hie⟩ := exists_opcode_eq hlegal (fieldIE w)
    exact ⟨i, decode_eq_ok.2 ⟨hcmd.symm, hie.symm, hstart⟩, hcmd, hie⟩
  · exact (decode_start hstart).trans (decodeCMD_illegal hillegal _)

/-! ## The worked words of R100 -/

/-- The fields of the STATUS word, and its reserved bits (R26). -/
theorem statusWord_fields (s : State) :
    s.statusWord.getLsbD 0 = s.statusBUSY ∧ s.statusWord.getLsbD 1 = s.statusDONE ∧
    s.statusWord.getLsbD 2 = s.statusLOCKERR ∧ s.statusWord.extractLsb' 3 5 = 0#5 ∧
    s.statusWord.extractLsb' 8 8 = s.statusCODE ∧ s.statusWord.extractLsb' 16 4 = s.statusCAUSE ∧
    s.statusWord.extractLsb' 20 12 = 0#12 := by
  refine ⟨statusWord_bits s 0 (by decide), statusWord_bits s 1 (by decide), statusWord_bits s 2 (by decide),
    ?_, ?_, ?_, ?_⟩ <;>
  · apply BitVec.eq_of_getLsbD_eq
    intro i hi
    rw [BitVec.getLsbD_extractLsb', statusWord_bits s _ (by omega)]
    interval_cases i <;> simp

/-- Settles O1: the three words by evaluation, and STATUS by its fields. -/
theorem specExampleWordsDecode : Obligations.SpecExampleWordsDecode := by
  refine ⟨by decide, by decide, by decide, fun s hidle => ?_, fun s hword => ?_, fun s off htarget => ?_⟩
  · rw [writeCtrl_eq, afterCtrl_noStart hidle (by decide)]
    rfl
  · obtain ⟨hbusy, hdone, hlockerr, -, hcode, hcause, -⟩ := statusWord_fields s
    rw [hword] at hbusy hdone hlockerr hcode hcause
    exact ⟨hbusy.symm, hdone.symm, hlockerr.symm, hcode.symm, hcause.symm⟩
  · rw [readWord_reg htarget]
    exact ⟨rfl, statusWord_fields s⟩

/-! ## The transfers of OPND -/

/-- The aligned addresses of a window select its bytes (R35). -/
theorem targetAt_window (X : Buf) {o : Nat} (h : o < 4096) : targetAt (X.window + o) = .window X o := by
  cases X <;> simp only [Buf.window] <;> unfold targetAt
  all_goals
    repeat rw [if_neg (by omega)]
    rw [if_pos (by omega), Nat.add_sub_cancel_left]

/-- The offsets of a window's words, as LOAD forms them (R35, R99). -/
theorem target_windowOffset (X : Buf) {o : Nat} (hlt : o < 4096) (hmod : o % 4 = 0) :
    target (X.offset + BitVec.ofNat 15 o) = .window X o := by
  have haddr : (X.offset + BitVec.ofNat 15 o).toNat / 4 * 4 = X.window + o := by
    rw [Buf.offset, ← BitVec.ofNat_add, BitVec.toNat_ofNat]
    cases X <;> simp only [Buf.window] <;> omega
  rw [target_eq, haddr, targetAt_window X hlt]

/-- Lane `i` of word `j` of LOAD is the operand's byte 4j + i, 0 past its end (R99). -/
theorem lane_packWord (bytes : List Byte) (j : Nat) {i : Nat} (hi : i < 4) :
    lane (packWord bytes j) i = bytes.getD (4 * j + i) 0#8 := by
  rw [packWord, lane_word _ _ _ _ _ hi]
  interval_cases i <;> rfl

/-- A step at the end of a run. -/
theorem run_snoc {k : Nat} {s t u : State} (hrun : Host.Core.run Sys2Proof.core k s = .next t) (hstep : step t = .next u) :
    Host.Core.run Sys2Proof.core (k + 1) s = .next u := by
  induction k generalizing s with
  | zero =>
    cases hrun
    exact run_succ 0 hstep
  | succ k ih =>
    rw [run_succ k (step_eq s)] at hrun
    rw [run_succ (k + 1) (step_eq s)]
    exact ih hrun

/-- A step of an idle engine whose next event is a write transfer: the clock does not run. -/
theorem step_idle_write {s : State} (hidle : s.statusBUSY = false) {off : Offset} {w : Word} {strb : Strobe}
    {rest : List Event} (h : s.inputs = .write off w strb :: rest) :
    step s = .next ((s.withInputs rest).afterWrite off w strb) := by
  rw [step_cons h, tick_idle (s.withInputs rest) hidle]
  rfl

/-- The transfer of one word of LOAD (R99). -/
def loadWord (X : Buf) (bytes : List Byte) (j : Nat) : Event :=
  .write (X.offset + BitVec.ofNat 15 (4 * j)) (packWord bytes j) 0xF#4

/-- LOAD is its words in order (R99). -/
theorem expandLoad_eq (X : Buf) (bytes : List Byte) :
    expandLoad X bytes = (List.range ((bytes.length + 3) / 4)).map (loadWord X bytes) := rfl

/-- What LOAD leaves after its first `n` words, from the idle state `s`: an idle engine that holds the operand's first 4n
bytes in the window, as far as storage backs them, and every other byte as before (R62, R67, R99). -/
structure LoadedWords (X : Buf) (bytes : List Byte) (n : Nat) (s t : State) : Prop where
  idle : t.statusBUSY = false
  maxBytes : t.maxBytes = s.maxBytes
  readByte : ∀ Y k, t.readByte Y k =
    if Y = X ∧ k < 4 * n ∧ k < s.maxBytes then bytes.getD k 0#8 else s.readByte Y k

section Load

variable {X : Buf} {bytes : List Byte} {n : Nat} {s t : State}

/-- One more word of LOAD on an idle engine (R62). -/
theorem LoadedWords.writeWindow (h : LoadedWords X bytes n s t) (hl : Config.legalMaxBytes s.maxBytes = true)
    (rest : List Event) :
    LoadedWords X bytes (n + 1) s ((t.withInputs rest).writeWindow X (4 * n) (packWord bytes n) 0xF#4) := by
  refine ⟨by simpa using h.idle, by simpa using h.maxBytes, fun Y k => ?_⟩
  have hold : (t.withInputs rest).readByte Y k = t.readByte Y k := rfl
  rw [readByte_writeWindow (s := t.withInputs rest) (h.maxBytes.symm ▸ hl), withInputs_maxBytes, h.maxBytes, hold,
    h.readByte]
  have hstrb : ∀ i, i < 4 → (0xF#4).getLsbD i = true := by decide
  by_cases hword : 4 * n ≤ k ∧ k < 4 * n + 4
  · have hlane : lane (packWord bytes n) (k - 4 * n) = bytes.getD k 0#8 := by
      rw [lane_packWord bytes n (by omega), Nat.add_sub_cancel' hword.1]
    have hin : k < 4 * (n + 1) := by omega
    have hout : ¬ k < 4 * n := by omega
    simp [hword, hstrb (k - 4 * n) (by omega), hlane, hin, hout]
  · have hsame : k < 4 * (n + 1) ↔ k < 4 * n := by omega
    rw [if_neg fun ⟨_, hlo, hhi, _⟩ => hword ⟨hlo, hhi⟩]
    simp only [hsame]

/-- A step of an idle engine whose next event is a word of LOAD (R62). -/
theorem step_loadWord (hidle : t.statusBUSY = false) (hn : n < 1024) {rest : List Event}
    (h : t.inputs = loadWord X bytes n :: rest) :
    step t = .next ((t.withInputs rest).writeWindow X (4 * n) (packWord bytes n) 0xF#4) := by
  have htarget := target_windowOffset X (o := 4 * n) (by omega) (by omega)
  rw [step_idle_write hidle h, afterWrite_window htarget, hostWriteWindow_idle (s := t.withInputs rest) hidle]

/-- The first `n` words of LOAD on an idle engine (R99). -/
theorem run_loadWords (hidle : s.statusBUSY = false) (hl : Config.legalMaxBytes s.maxBytes = true) (hn : n ≤ 1024)
    {rest : List Event} (hs : s.inputs = (List.range n).map (loadWord X bytes) ++ rest) :
    ∃ t : State, Host.Core.run Sys2Proof.core n s = .next t ∧ t.inputs = rest ∧ LoadedWords X bytes n s t := by
  induction n generalizing rest with
  | zero => exact ⟨s, rfl, hs, hidle, rfl, by simp⟩
  | succ n ih =>
    have hs' : s.inputs = (List.range n).map (loadWord X bytes) ++ loadWord X bytes n :: rest := by
      simpa [List.range_succ] using hs
    obtain ⟨t, hrun, hinputs, ht⟩ := ih (by omega) hs'
    exact ⟨_, run_snoc hrun (step_loadWord ht.idle (by omega) hinputs), writeWindow_inputs _ _ _ _ _,
      ht.writeWindow hl rest⟩

end Load

/-- The length register of an operand (R29 to R32). -/
def Buf.lenReg : Buf → Reg
  | .base => .baseLen
  | .exp => .expLen
  | .mod => .modLen
  | .out => .outLen

/-- The offset of an operand's length selects its length register (R35). -/
theorem target_lenOffset (X : Buf) : target X.lenOffset = .reg X.lenReg := by
  cases X <;> decide

/-- A write to an operand's length register of an idle engine sets that length, and no byte or event (R29 to R32). -/
theorem writeReg_lenReg {s : State} (hidle : s.statusBUSY = false) (X : Buf) (w : Word) :
    (s.writeReg X.lenReg w).lenOf X = w.toNat ∧ (s.writeReg X.lenReg w).inputs = s.inputs ∧
      ∀ Y k, (s.writeReg X.lenReg w).readByte Y k = s.readByte Y k := by
  cases X <;> simp [Buf.lenReg, State.writeReg, lockedWrite_idle hidle, State.lenOf, State.readByte]

/-- A step of an idle engine whose next event writes an operand's length (R29 to R32, R66). -/
theorem step_lenOffset {s : State} (hidle : s.statusBUSY = false) {X : Buf} {w : Word} {rest : List Event}
    (h : s.inputs = .write X.lenOffset w 0xF#4 :: rest) :
    step s = .next ((s.withInputs rest).writeReg X.lenReg w) := by
  have hne : X.lenReg ≠ .ctrl := by cases X <;> decide
  rw [step_idle_write hidle h, afterWrite_reg (target_lenOffset X) hne, if_pos rfl]

/-- Settles O58: the words of LOAD in turn, then the write of the length. -/
theorem loadedOperandStandsInItsWindow : Obligations.LoadedOperandStandsInItsWindow := by
  intro s X bytes _ hidle hl hlen hs
  have hle := legal_le hl
  rw [Stmt.expand, expandLoad_eq] at hs
  have hcount : s.inputs.length = (bytes.length + 3) / 4 + 1 := by simp [hs]
  obtain ⟨t, hrun, hinputs, ht⟩ := run_loadWords hidle hl (by omega) hs
  obtain ⟨hlenOf, hrest, hbytes⟩ := writeReg_lenReg (s := t.withInputs []) ht.idle X (BitVec.ofNat 32 bytes.length)
  rw [hcount]
  refine ⟨_, run_snoc hrun (step_lenOffset ht.idle hinputs), hrest, ?_, fun i hi => ?_, fun Y i hY => ?_⟩
  · rw [hlenOf, BitVec.toNat_ofNat, Nat.mod_eq_of_lt (by omega)]
  · exact (hbytes X i).trans ((ht.readByte X i).trans (if_pos ⟨rfl, by omega, by omega⟩))
  · exact (hbytes Y i).trans ((ht.readByte Y i).trans (if_neg fun h => hY h.1))

end Sys2Proof.Machine

/-! PROOFS. The checks of a result-computing command in their order (R113, R116 to R120): the outcome when a check fails, what
CODE and CAUSE a completion records, and that the second capacity check never fails (R123). -/

namespace Sys2Proof.Machine

/-! ## The status of a completion -/

/-- The check an outcome reports: `.none` for a success (R96, R113). -/
def CmdOutcome.cause : CmdOutcome → Cause
  | .write _ => .none
  | .zeroize => .none
  | .error c => c

/-- The causes of an absent handle (R116). -/
def handleCauses : List Cause := [.nullBase, .nullExp, .nullMod, .nullOut]

/-- The causes of an overlong operand (R119). -/
def lengthCauses : List Cause := [.baseTooLong, .expTooLong, .modTooLong]

/-- What is left once the arguments are checked: success, or a cause of the modulus (R120, R196). -/
def modulusCauses : List Cause := [.none, .zeroModulus, .evenModulus]

/-- A completion records the CODE and the CAUSE of its outcome's check (R124). -/
theorem complete_status (o : CmdOutcome) (s : State) :
    (complete o s).statusCODE = o.cause.code ∧ (complete o s).statusCAUSE = o.cause.bits := by
  cases o <;> exact ⟨rfl, rfl⟩

/-- CODE and CAUSE after a result-computing command's completion are those of the check that decided (R124). -/
theorem exec_arith_status {op : ArithOp} {ie : Bool} {s t : State} (hb : s.statusBUSY = true)
    (h : exec (op.instr ie) s = .next t) :
    t.statusCODE = (execute op s).cause.code ∧ t.statusCAUSE = (execute op s).cause.bits := by
  cases (exec_arith op ie s hb).symm.trans h
  exact complete_status _ s

/-- A result-computing command whose outcome is an error completes with that error (R124, R125). -/
theorem exec_arith_error {op : ArithOp} {s : State} {c : Cause} (ie : Bool) (hb : s.statusBUSY = true)
    (h : execute op s = .error c) : exec (op.instr ie) s = .next (failed c.code c.bits s) := by
  rw [exec_arith op ie s hb, h, complete_error]

/-! ## The order of the checks -/

/-- Every command needs BASE (R93). -/
@[simp] theorem ArithOp.needs_base (op : ArithOp) : op.needs .base = true := by cases op <;> rfl

/-- Every command needs MOD (R93). -/
@[simp] theorem ArithOp.needs_mod (op : ArithOp) : op.needs .mod = true := by cases op <;> rfl

/-- Every command needs OUT (R93). -/
@[simp] theorem ArithOp.needs_out (op : ArithOp) : op.needs .out = true := by cases op <;> rfl

section Order

variable {op : ArithOp} {s : State} {c : Cause}

/-- A failing handle check decides the outcome (R116). -/
theorem execute_handle_error (h : checkHandles op s = some c) : execute op s = .error c :=
  execute_argument_error (by simp [checkArguments, h])

/-- With the handles present, a capacity below MOD_LEN decides the outcome (R117). -/
theorem execute_capacity_error (hh : HandlesPresent op s) (h : s.outLen.toNat < s.modLen.toNat) :
    execute op s = .error .capLtModLen := by
  have hcap : checkCapacity s = some .capLtModLen := if_pos (BitVec.lt_def.2 h)
  exact execute_argument_error (by simp [checkArguments, (checkHandles_none op s).2 hh, hcap])

/-- With the handles present and enough capacity, a failing length check decides the outcome (R119). -/
theorem execute_length_error (hh : HandlesPresent op s) (hcap : s.modLen.toNat ≤ s.outLen.toNat)
    (h : checkLengths op s = some c) : execute op s = .error c :=
  execute_argument_error (by
    simp [checkArguments, (checkHandles_none op s).2 hh, (checkCapacity_none s).2 hcap, h])

/-- With the arguments checked, a failing modulus check decides the outcome (R120, R196). -/
theorem execute_modulus_error (hh : HandlesPresent op s) (hcap : s.modLen.toNat ≤ s.outLen.toNat)
    (hfit : OperandsFit op s) (h : checkModulus op (s.importValue .mod) = some c) : execute op s = .error c := by
  simp [execute, (checkArguments_none op s).2 ⟨hh, hcap, hfit⟩, h]

/-- The capacity check raises one cause. -/
theorem checkCapacity_cause (h : checkCapacity s = some c) : c = .capLtModLen := by
  unfold checkCapacity at h
  split at h <;> cases h
  rfl

/-- The handle checks raise these causes only. -/
theorem checkHandles_cause (h : checkHandles op s = some c) : c ∈ handleCauses := by
  unfold checkHandles at h
  repeat' split at h
  all_goals cases h
  all_goals decide

/-- The length checks raise these causes only. -/
theorem checkLengths_cause (h : checkLengths op s = some c) : c ∈ lengthCauses := by
  unfold checkLengths at h
  repeat' split at h
  all_goals cases h
  all_goals decide

end Order

/-- The cause an outcome reports, by the first group of checks that fails (R113, R221). -/
theorem execute_cause_cases (op : ArithOp) (s : State) :
    (¬ HandlesPresent op s ∧ (execute op s).cause ∈ handleCauses) ∨
    (HandlesPresent op s ∧ s.outLen.toNat < s.modLen.toNat ∧ (execute op s).cause = .capLtModLen) ∨
    (HandlesPresent op s ∧ ¬ OperandsFit op s ∧ (execute op s).cause ∈ lengthCauses) ∨
    (HandlesPresent op s ∧ (execute op s).cause ∈ modulusCauses) := by
  by_cases hh : HandlesPresent op s
  · by_cases hcap : s.modLen.toNat ≤ s.outLen.toNat
    · by_cases hfit : OperandsFit op s
      · have hargs := (checkArguments_none op s).2 ⟨hh, hcap, hfit⟩
        obtain ⟨c, hc, -⟩ | ⟨-, c, hc, heq⟩ | ⟨-, -, heq⟩ := execute_cases op s
        · cases hargs.symm.trans hc
        · obtain rfl | ⟨-, rfl⟩ := checkModulus_cause hc <;> exact .inr (.inr (.inr ⟨hh, heq ▸ by decide⟩))
        · exact .inr (.inr (.inr ⟨hh, by rw [heq]; exact List.mem_cons_self⟩))
      · obtain ⟨c, hc⟩ := Option.ne_none_iff_exists'.1 (mt (checkLengths_none op s).1 hfit)
        exact .inr (.inr (.inl ⟨hh, hfit, execute_length_error hh hcap hc ▸ checkLengths_cause hc⟩))
    · have hlt := Nat.lt_of_not_le hcap
      exact .inr (.inl ⟨hh, hlt, by rw [execute_capacity_error hh hlt]; rfl⟩)
  · obtain ⟨c, hc⟩ := Option.ne_none_iff_exists'.1 (mt (checkHandles_none op s).1 hh)
    exact .inl ⟨hh, execute_handle_error hc ▸ checkHandles_cause hc⟩

/-! ## The null handles (R116) -/

section Handles

variable {op : ArithOp} {s : State}

/-- An absent BASE fails the first handle check. -/
theorem checkHandles_nullBase (hbase : s.present .base = false) : checkHandles op s = some .nullBase := by
  simp [checkHandles, hbase]

/-- An absent EXP that the command needs fails the second handle check. -/
theorem checkHandles_nullExp (hbase : s.present .base = true) (hneeds : op.needs .exp = true)
    (hexp : s.present .exp = false) : checkHandles op s = some .nullExp := by
  simp [checkHandles, hbase, hneeds, hexp]

/-- An absent MOD fails the third handle check. -/
theorem checkHandles_nullMod (hbase : s.present .base = true) (hexp : op.needs .exp = true → s.present .exp = true)
    (hmod : s.present .mod = false) : checkHandles op s = some .nullMod := by
  simpa [checkHandles, hbase, hmod] using hexp

/-- An absent OUT fails the last handle check. -/
theorem checkHandles_nullOut (hbase : s.present .base = true) (hexp : op.needs .exp = true → s.present .exp = true)
    (hmod : s.present .mod = true) (hout : s.present .out = false) : checkHandles op s = some .nullOut := by
  simpa [checkHandles, hbase, hmod, hout] using hexp

end Handles

/-- Settles O34: the first absent handle decides before any other check, and no later check has a null-handle cause. -/
theorem absentHandleFails : Obligations.AbsentHandleFails := by
  intro op ie s hb
  have hfails : ∀ {c : Cause}, checkHandles op s = some c → exec (op.instr ie) s = .next (failed c.code c.bits s) :=
    fun hc => exec_arith_error ie hb (execute_handle_error hc)
  refine ⟨fun hbase => hfails (checkHandles_nullBase hbase),
    fun hbase hneeds hexp => hfails (checkHandles_nullExp hbase hneeds hexp),
    fun hbase hexp hmod => hfails (checkHandles_nullMod hbase hexp hmod),
    fun hbase hexp hmod hout => hfails (checkHandles_nullOut hbase hexp hmod hout), fun hh t ht => ?_⟩
  have hlength : ∀ c ∈ lengthCauses, c.bits ∉ [2#4, 3#4, 4#4, 5#4] := by decide
  have hmodulus : ∀ c ∈ modulusCauses, c.bits ∉ [2#4, 3#4, 4#4, 5#4] := by decide
  rw [(exec_arith_status hb ht).2]
  obtain ⟨habsent, -⟩ | ⟨-, -, hc⟩ | ⟨-, -, hc⟩ | ⟨-, hc⟩ := execute_cause_cases op s
  · exact absurd hh habsent
  · rw [hc]
    decide
  · exact hlength _ hc
  · exact hmodulus _ hc

/-! ## The capacity (R117) -/

/-- With the handles present, a capacity below MOD_LEN completes with CAP_LT_MODLEN, whatever the operands are. -/
theorem exec_capLtModLen {op : ArithOp} (ie : Bool) {s : State} (hb : s.statusBUSY = true) (hh : HandlesPresent op s)
    (h : s.outLen.toNat < s.modLen.toNat) : exec (op.instr ie) s = .next (failed 0xFE#8 6#4 s) :=
  exec_arith_error ie hb (execute_capacity_error hh h)

/-- Settles O35: the capacity check stands between the handle checks, all with CODE -1, and every other check. -/
theorem capacityBelowModulusLengthFails : Obligations.CapacityBelowModulusLengthFails := by
  intro op ie s hb
  refine ⟨exec_capLtModLen ie hb, fun habsent => ?_, fun hcap t ht => ?_⟩
  · obtain ⟨c, hc⟩ := Option.ne_none_iff_exists'.1 (mt (checkHandles_none op s).1 habsent)
    have hcode : ∀ c ∈ handleCauses, c.code = 0xFF#8 := by decide
    exact ⟨_, exec_arith_error ie hb (execute_handle_error hc), hcode c (checkHandles_cause hc)⟩
  · have hhandle : ∀ c ∈ handleCauses, c.bits ≠ 6#4 := by decide
    have hlength : ∀ c ∈ lengthCauses, c.bits ≠ 6#4 := by decide
    have hmodulus : ∀ c ∈ modulusCauses, c.bits ≠ 6#4 := by decide
    rw [(exec_arith_status hb ht).2]
    obtain ⟨-, hc⟩ | ⟨-, hlt, -⟩ | ⟨-, -, hc⟩ | ⟨-, hc⟩ := execute_cause_cases op s
    · exact hhandle _ hc
    · exact absurd hcap (Nat.not_le_of_lt hlt)
    · exact hlength _ hc
    · exact hmodulus _ hc

/-! ## The lengths (R119) -/

section Lengths

variable {op : ArithOp} {s : State}

/-- An overlong BASE fails the first length check. -/
theorem checkLengths_baseTooLong (hbase : s.maxBytes < s.baseLen.toNat) : checkLengths op s = some .baseTooLong :=
  if_pos hbase

/-- An overlong EXP that the command needs fails the second length check. -/
theorem checkLengths_expTooLong (hbase : s.baseLen.toNat ≤ s.maxBytes) (hneeds : op.needs .exp = true)
    (hexp : s.maxBytes < s.expLen.toNat) : checkLengths op s = some .expTooLong := by
  simp [checkLengths, State.lenOf, hbase.not_gt, hneeds, hexp]

/-- An overlong MOD fails the last length check. -/
theorem checkLengths_modTooLong (hbase : s.baseLen.toNat ≤ s.maxBytes)
    (hexp : op.needs .exp = true → s.expLen.toNat ≤ s.maxBytes) (hmod : s.maxBytes < s.modLen.toNat) :
    checkLengths op s = some .modTooLong := by
  simpa [checkLengths, State.lenOf, hbase.not_gt, hmod] using hexp

end Lengths

/-- Settles O36: the first overlong operand decides, and only an overlong operand has CODE -3. -/
theorem overlongOperandFails : Obligations.OverlongOperandFails := by
  intro op ie s hb hh hcap
  have hfails : ∀ {c : Cause}, checkLengths op s = some c → exec (op.instr ie) s = .next (failed c.code c.bits s) :=
    fun hc => exec_arith_error ie hb (execute_length_error hh hcap hc)
  refine ⟨fun hbase => hfails (checkLengths_baseTooLong hbase),
    fun hbase hneeds hexp => hfails (checkLengths_expTooLong hbase hneeds hexp),
    fun hbase hexp hmod => hfails (checkLengths_modTooLong hbase hexp hmod), fun hfit t ht => ?_⟩
  have hmodulus : ∀ c ∈ modulusCauses, c.code ≠ 0xFD#8 := by decide
  rw [(exec_arith_status hb ht).1]
  obtain ⟨habsent, -⟩ | ⟨-, hlt, -⟩ | ⟨-, hlong, -⟩ | ⟨-, hc⟩ := execute_cause_cases op s
  · exact absurd hh habsent
  · exact absurd hcap (Nat.not_le_of_lt hlt)
  · exact absurd hfit hlong
  · exact hmodulus _ hc

/-! ## The zero modulus (R120) -/

/-- An operand imports as 0 exactly when every byte below its length is 0 (R75, R120). -/
theorem importValue_eq_zero (s : State) (X : Buf) :
    s.importValue X = 0 ↔ ∀ i, i < s.lenOf X → s.readByte X i = 0#8 := by
  simp [importValue_eq_sum, Finset.sum_eq_zero_iff, BitVec.toNat_eq]

/-- Settles O37: the modulus is checked when the handles, the capacity and the lengths have passed. -/
theorem zeroModulusFails : Obligations.ZeroModulusFails := by
  refine ⟨fun op ie s hb hh hcap hfit hzero => ?_, fun op ie s hb hh hlt _ => exec_capLtModLen ie hb hh hlt,
    fun s => importValue_eq_zero s .mod⟩
  have hcheck : checkModulus op (s.importValue .mod) = some .zeroModulus := if_pos hzero
  exact exec_arith_error ie hb (execute_modulus_error hh hcap hfit hcheck)

/-! ## The second capacity check (R123) -/

/-- Settles O40: a result is below the modulus, so no longer than its bytes, which the arguments' checks bound. -/
theorem resultAlwaysFits : Obligations.ResultAlwaysFits := by
  intro op s
  refine ⟨fun herror => ?_, fun bytes hwrite => ?_⟩
  · have hfits := execute_fits op s
    rw [herror] at hfits
    exact hfits rfl
  · obtain ⟨c, -, heq⟩ | ⟨-, c, -, heq⟩ | ⟨hargs, hmod, heq⟩ := execute_cases op s <;> cases heq.symm.trans hwrite
    obtain ⟨-, hcap, hfit⟩ := (checkArguments_none op s).1 hargs
    rw [length_exportBytes]
    exact ⟨exportLength_pos _, result_length_le op s ((checkModulus_none op _).1 hmod).1 _ _, hcap,
      hfit .mod (by decide) op.needs_mod⟩

end Sys2Proof.Machine

/-! PROOFS. The moves of a command: a step runs the decoded command, acceptance, internal steps, completion, and that no
command is left running (R110 to R112, R124, R129). -/

namespace Sys2Proof.Machine

/-! ## Acceptance (R110, R111) -/

/-- Settles O8: with the full strobe START decides between an acceptance and a write of IE and CMD alone. -/
theorem ctrlWriteWhileIdle : Obligations.CtrlWriteWhileIdle := by
  intro s off w strb hidle htarget
  refine ⟨discardedDatapath s.discards, s.discards + 1, ?_⟩
  rw [hostWrite_eq, afterWrite_ctrl htarget]
  by_cases hstrb : strb = 0xF#4
  · have hstart : w.getLsbD 0 = fieldSTART w := rfl
    rw [if_pos hstrb, if_pos hstrb, hstart]
    cases hw : fieldSTART w with
    | true =>
      rw [afterCtrl_start hidle hw, if_pos rfl]
      rfl
    | false =>
      rw [afterCtrl_noStart hidle hw, if_neg Bool.false_ne_true]
      rfl
  · rw [if_neg hstrb, if_neg hstrb]

/-- Settles O9: exec's move while BUSY = 0 is the acceptance with the command's own opcode and IE. -/
theorem commandAcceptance : Obligations.CommandAcceptance := by
  intro i s hidle
  rw [exec_eq, hidle]
  rfl

/-! ## The step runs the decoded command -/

/-- A word that decodes to a command takes that command's next move (R91). -/
theorem runWord_decoded {w : Word} {i : Instr} (h : decode w = .ok i) (s : State) : runWord w s = exec i s := by
  simp [runWord, h]

/-- The ENGINE's completion is that of the command whose word CTRL holds (R112, R124). -/
theorem engineComplete_decoded {s : State} {i : Instr} (hb : s.statusBUSY = true) (h : decode s.runningWord = .ok i) :
    engineComplete s = exec i s := by
  rw [engineComplete, if_pos hb, runWord_decoded h]

/-- A full-strobe CTRL write of a command's word while BUSY = 0 is that command's move (R110). -/
theorem hostWrite_decoded {s : State} {i : Instr} {off : Offset} {w : Word} (hidle : s.statusBUSY = false)
    (htarget : target off = .reg .ctrl) (h : decode w = .ok i) : hostWrite off w 0xF#4 s = exec i s := by
  obtain ⟨hcmd, hie, hstart⟩ := decode_eq_ok.1 h
  rw [hostWrite_ctrl_full htarget, afterCtrl_start hidle hstart, exec_eq, hidle, hcmd, hie]
  rfl

/-- The clock does not change the word of the running command. -/
@[simp] theorem tick_runningWord (s : State) : s.tick.runningWord = s.runningWord := by
  simp [State.runningWord]

/-- A step whose event is `e` is that event's move after the clock has run (R9). -/
theorem step_eq_handleEvent {s : State} {e : Event} {rest : List Event} (h : s.inputs = e :: rest) :
    step s = handleEvent e (s.withInputs rest).tick := by
  rw [step_cons h, handleEvent_eq]

/-- A step whose event is the ENGINE's completion runs the command in CTRL (R112, R124). -/
theorem step_engineComplete {s : State} {i : Instr} {rest : List Event} (hb : s.statusBUSY = true)
    (hs : s.inputs = .engineComplete :: rest) (h : decode s.runningWord = .ok i) :
    step s = exec i (s.withInputs rest).tick := by
  rw [step_eq_handleEvent hs]
  exact engineComplete_decoded (by simpa using hb) ((tick_runningWord _).symm ▸ h)

/-- A command's encoding as placed by withFetchWord: the command is accepted and the ENGINE's completion is next (R111). -/
theorem withFetchWord_encode (s : State) (i : Instr) :
    s.withFetchWord 32 (encode i).toNat = (s.accept i.opcode i.ie).withInputs (.engineComplete :: s.inputs) := by
  have hword : BitVec.ofNat 32 ((encode i).toNat % 2 ^ 32) = encode i := by
    rw [Nat.mod_eq_of_lt (encode i).isLt, BitVec.ofNat_toNat, BitVec.setWidth_eq]
  rw [State.withFetchWord, hword, State.withCommandWord, encode, fieldSTART_ctrlWord, fieldCMD_ctrlWord, fieldIE_ctrlWord,
    if_pos rfl]

/-- Settles O4: the next event's move, with the word it runs decoded. -/
theorem stepRunsTheDecodedCommand : Obligations.StepRunsTheDecodedCommand := by
  refine ⟨fun s e rest hs => step_eq_handleEvent hs, fun s hs => ?_, fun s i hb hs h => ?_,
    fun s i rest hb hs h => step_engineComplete hb hs h, fun s i off w rest hidle hs htarget h => ?_, fun s i => ?_⟩
  · rw [step_nil hs, handleEvent_eq]
  · rw [step_nil hs, ← handleEvent_eq]
    exact engineComplete_decoded (by simpa using hb) ((tick_runningWord s).symm ▸ h)
  · rw [step_eq_handleEvent hs, tick_idle (s.withInputs rest) hidle]
    exact hostWrite_decoded (s := s.withInputs rest) hidle htarget h
  · rw [withFetchWord_encode]
    have hdecode : decode (ctrlWord i.opcode i.ie true) = .ok i := decode_eq_ok.2 (by simp)
    exact step_engineComplete (s := (s.accept i.opcode i.ie).withInputs (.engineComplete :: s.inputs)) rfl rfl hdecode

/-! ## Internal steps (R112) -/

/-- Settles O7: the clock and the internal step change what no output and no other read sees. -/
theorem internalStepsAreInvisible : Obligations.InternalStepsAreInvisible := by
  intro s rest hs
  have hframe : (s.withInputs rest).tick.internalStep = { s with
      inputs := rest, perfCycles := (s.withInputs rest).tick.internalStep.perfCycles
      clockDraws := (s.withInputs rest).tick.internalStep.clockDraws
      datapath := (s.withInputs rest).tick.internalStep.datapath } := by
    rw [internalStep_eq, tick_eq]
    rfl
  refine ⟨_, step_cons hs, hframe, ?_, fun off hoff => ?_⟩
  · rw [State.afterEvent, hframe]
    rfl
  · rw [readWord_afterEvent hoff (.inl rfl), readWord_tick hoff]

/-! ## Completion (R124) -/

/-- Settles O45: the frame of a completion. -/
theorem everyCompletionEndsTheCommand : Obligations.EveryCompletionEndsTheCommand := by
  intro i s hb
  refine ⟨complete (commandOutcome i.opcode s) s, by rw [exec_eq, if_pos hb], ?_⟩
  obtain ⟨hbusy, hdone⟩ := complete_busy (commandOutcome i.opcode s) s
  refine ⟨hbusy, hdone, complete_irq _ s, ?_⟩
  rw [complete_frame]
  exact ⟨rfl, rfl, rfl, rfl, rfl, rfl, rfl⟩

/-- After the ENGINE's completion no command is running (R124). -/
theorem afterEvent_engineComplete_busy (s : State) : (s.afterEvent .engineComplete).statusBUSY = false := by
  rw [State.afterEvent]
  split
  · exact (complete_busy _ s).1
  · next hidle => exact Bool.eq_false_iff.2 hidle

/-- No move places or takes off an event. -/
theorem afterEvent_inputs (e : Event) (s : State) : (s.afterEvent e).inputs = s.inputs := by
  cases e with
  | read off | reset => rfl
  | write off w strb =>
    rw [State.afterEvent]
    cases hb : s.statusBUSY
    · obtain ⟨-, -, -, heq⟩ | heq := afterWrite_idle hb off w strb <;> rw [heq]
      rfl
    · rw [afterWrite_busy hb]
  | engineInternal => exact internalStep_inputs s
  | engineComplete =>
    rw [State.afterEvent]
    split
    · rw [complete_frame]
      rfl
    · rfl

/-- As many steps as there are events to come leave none (R9). -/
theorem run_inputs_length {events : List Event} {s : State} (hs : s.inputs = events) :
    ∃ t : State, Host.Core.run Sys2Proof.core events.length s = .next t ∧ t.inputs = [] := by
  induction events generalizing s with
  | nil => exact ⟨s, rfl, hs⟩
  | cons e rest ih =>
    rw [List.length_cons, run_succ _ (step_cons hs)]
    exact ih (by rw [afterEvent_inputs, tick_inputs, withInputs_inputs])

/-- Settles O6: when the events are over the next step is the ENGINE's completion. -/
theorem noCommandStaysRunning : Obligations.NoCommandStaysRunning := by
  intro s
  obtain ⟨t, hrun, ht⟩ := run_inputs_length (s := s) rfl
  refine ⟨_, run_snoc hrun (step_nil ht), ?_, afterEvent_engineComplete_busy _⟩
  rw [afterEvent_inputs, tick_inputs, ht]

/-! ## The source's scenario (R129) -/

/-- An operand of one byte imports as that byte (R75). -/
theorem importValue_oneByte {s : State} {X : Buf} (h : s.lenOf X = 1) : s.importValue X = (s.readByte X 0).toNat := by
  simp [importValue_eq_sum, h]

/-- STATUS after a success: CODE, CAUSE and BUSY 0, DONE 1, and LOCKERR as before (R26, R124). -/
theorem statusWord_written (r : Nat) (s : State) : (written r s).statusWord =
    if s.statusLOCKERR then 0x00000006#32 else 0x00000002#32 := by
  have hword : (written r s).statusWord = 0#12 ++ 0#4 ++ 0x00#8 ++ 0#5 ++ BitVec.ofBool s.statusLOCKERR ++
      BitVec.ofBool true ++ BitVec.ofBool false := rfl
  rw [hword]
  cases s.statusLOCKERR <;> rfl

/-- Settles O59: the run is normal, so it writes Export(5^3 mod 13). -/
theorem sourceScenarioFiveCubedModThirteen : Obligations.SourceScenarioFiveCubedModThirteen := by
  intro s hb hlockerr hl hargs hbaseLen hexpLen hmodLen houtLen hbase hexp hmod hcmd
  have hlen : ∀ X, s.lenOf X = 1 := by
    intro X
    cases X <;> simp [State.lenOf, hbaseLen, hexpLen, hmodLen, houtLen]
  have hmax : 1 ≤ s.maxBytes := by
    simp [Config.legalMaxBytes] at hl
    omega
  have hm : s.importValue .mod = 13 := by rw [importValue_oneByte (hlen .mod), hmod]; rfl
  have hrun : NormalRun .modexp s :=
    ⟨hb, fun X _ => by cases X <;> simp [State.present, hargs], by rw [hmodLen, houtLen],
      fun X _ _ => (hlen X).trans_le hmax, by simp [hm], nofun⟩
  have hcompute : compute .modexp (s.importValue .base) (secondOperand .modexp s) (s.importValue .mod) = 8 := by
    have ha : s.importValue .base = 5 := by rw [importValue_oneByte (hlen .base), hbase]; rfl
    have he : secondOperand .modexp s = 3 := (importValue_oneByte (hlen .exp)).trans (by rw [hexp]; rfl)
    rw [ha, he, hm]
    decide
  have hexport : exportBytes 8 = [0x08#8] := by decide
  refine ⟨written 8 s, ?_, ?_, rfl, ?_⟩
  · rw [engineComplete_eq, if_pos hb, hcmd, commandOutcome_of_arithOp (op := .modexp) rfl, hrun.complete_eq, hcompute]
  · have hfit : exportLength 8 ≤ s.maxBytes := hmax
    rw [readByte_written hl hfit, if_pos ⟨rfl, by decide⟩, hexport]
    rfl
  · rw [statusWord_written, hlockerr]
    rfl

end Sys2Proof.Machine

/-! PROOFS. The exponentiation schedules (R145 to R149), each over any product that adds exponents, the datapath's sequences
under them (R174 to R177), and the results of MODEXP (R140 to R143). -/

namespace Sys2Proof.Machine

/-! ## Loops over bit and window indices -/

/-- A loop over the falling indices below `n`, each turn of which goes from `G (j + 1)` to `G j`. -/
theorem foldl_range_reverse {α : Type} {step : α → Nat → α} {G : Nat → α} (hstep : ∀ j, step (G (j + 1)) j = G j)
    (n : Nat) : (List.range n).reverse.foldl step (G n) = G 0 := by
  induction n with
  | zero => rfl
  | succ n ih =>
    rw [List.range_succ, List.reverse_append, List.reverse_singleton, List.singleton_append, List.foldl_cons, hstep, ih]

/-- A loop over the rising indices below `n`, each turn of which goes from `G j` to `G (j + 1)`. -/
theorem foldl_range {α : Type} {step : α → Nat → α} {G : Nat → α} (hstep : ∀ j, step (G j) j = G (j + 1))
    (n : Nat) : (List.range n).foldl step (G 0) = G n := by
  induction n with
  | zero => rfl
  | succ n ih => rw [List.range_succ, List.foldl_append, ih, List.foldl_cons, List.foldl_nil, hstep]

/-- The exponent's bits from index `n` up are those from `n + l` up with a window of `l` bits below them. -/
theorem div_two_pow_window (e n l : Nat) : e / 2 ^ (n + l) * 2 ^ l + e / 2 ^ n % 2 ^ l = e / 2 ^ n := by
  rw [Nat.pow_add, ← Nat.div_div_eq_div_mul, Nat.div_add_mod']

/-- A window whose lowest bit is 1 has an odd value. -/
theorem window_odd {e n l : Nat} (hbit : e.testBit n = true) (hl : 1 ≤ l) : e / 2 ^ n % 2 ^ l % 2 = 1 := by
  rw [Nat.mod_mod_of_dvd _ (dvd_pow_self 2 (by omega)), ← Nat.toNat_testBit, hbit]
  rfl

/-- The window chosen from a 1 bit `n` has at least one bit, at most `max 1 L`, and ends in a 1 bit (R149). -/
theorem windowLength_spec {e n : Nat} (htop : e.testBit n = true) (L : Nat) :
    1 ≤ windowLength e n L ∧ windowLength e n L ≤ max 1 L ∧ e.testBit (n + 1 - windowLength e n L) = true := by
  induction L with
  | zero => exact ⟨le_rfl, le_rfl, htop⟩
  | succ L ih =>
    rw [windowLength]
    split
    · next hbit => exact ⟨by omega, by omega, by rwa [Nat.add_sub_add_right]⟩
    · obtain ⟨hpos, hle, hlow⟩ := ih
      exact ⟨hpos, by omega, hlow⟩

/-! ## The schedules (R145, R147, R149)

`F k` is the datapath's form of the base to the power `k`, and `mul` its product, which adds exponents. -/

section Schedules

variable {mul : Nat → Nat → Nat} {F : Nat → Nat} (hmul : ∀ i j, mul (F i) (F j) = F (i + j))
include hmul

/-- `n` squarings double the exponent `n` times. -/
theorem squareTimes_form (n k : Nat) : squareTimes mul n (F k) = F (k * 2 ^ n) := by
  induction n generalizing k with
  | zero => rw [squareTimes, Nat.pow_zero, Nat.mul_one]
  | succ n ih =>
    rw [squareTimes, hmul, ih, Nat.pow_succ]
    congr 1
    ring

/-- `n` multiplications add the factor's exponent `n` times. -/
theorem mulTimes_form (j n k : Nat) : mulTimes mul (F j) n (F k) = F (k + n * j) := by
  induction n generalizing k with
  | zero => rw [mulTimes, Nat.zero_mul, Nat.add_zero]
  | succ n ih =>
    rw [mulTimes, hmul, ih]
    congr 1
    ring

/-- The table entry of an odd window value is that power of the base (R149). -/
theorem oddPower_form {v : Nat} (hv : v % 2 = 1) : oddPower mul (F 1) v = F v := by
  rw [oddPower, hmul, mulTimes_form hmul]
  congr 1
  omega

/-- The left-to-right scan has the bits from index `i` up in its accumulator (R145, R147). -/
theorem expLeftToRight_form (e : Nat) : expLeftToRight mul (F 0) (F 1) e = F e := by
  have hstart : F 0 = F (e / 2 ^ bitlen e) := by rw [Nat.div_eq_of_lt (lt_two_pow_bitlen e)]
  have hend : F (e / 2 ^ 0) = F e := by rw [Nat.pow_zero, Nat.div_one]
  rw [expLeftToRight, hstart, ← hend]
  refine foldl_range_reverse (G := fun i => F (e / 2 ^ i)) (fun i => ?_) (bitlen e)
  have hbits := div_two_pow_window e i 1
  rw [Nat.pow_one, ← Nat.toNat_testBit, Nat.mul_two] at hbits
  rw [hmul, hmul, ← hbits]
  cases e.testBit i <;> rfl

/-- The right-to-left scan has the bits below index `i` in its accumulator, and the running square beside it (R149). -/
theorem expRightToLeft_form (e : Nat) : expRightToLeft mul (F 0) (F 1) e = F e := by
  have hstart : (F 0, F 1) = (F (e % 2 ^ 0), F (2 ^ 0)) := by rw [Nat.pow_zero, Nat.mod_one]
  have hend : F (e % 2 ^ bitlen e) = F e := by rw [Nat.mod_eq_of_lt (lt_two_pow_bitlen e)]
  rw [expRightToLeft, hstart, ← hend]
  refine congrArg Prod.fst (foldl_range (G := fun i => (F (e % 2 ^ i), F (2 ^ i))) (fun i => ?_) (bitlen e))
  have hbits : e % 2 ^ (i + 1) = e % 2 ^ i + 2 ^ i * (e.testBit i).toNat := by
    rw [Nat.pow_succ, Nat.mod_mul, Nat.toNat_testBit]
  rw [hbits, Nat.pow_succ, Nat.mul_two, hmul, hmul]
  cases e.testBit i <;> simp

/-- Fixed windows have the bits from the last window's lowest up in their accumulator (R149). -/
theorem expFixedWindow_form (e w : Nat) : expFixedWindow mul (F 0) (F 1) e (w + 1) = F e := by
  have hcover : bitlen e ≤ (w + 1) * ((bitlen e + w) / (w + 1)) := by
    have hdiv := Nat.div_add_mod (bitlen e + w) (w + 1)
    have hrest : (bitlen e + w) % (w + 1) < w + 1 := Nat.mod_lt _ (Nat.succ_pos w)
    omega
  have hlt := (lt_two_pow_bitlen e).trans_le (Nat.pow_le_pow_right Nat.two_pos hcover)
  have hstart : F 0 = F (e / 2 ^ ((w + 1) * ((bitlen e + w) / (w + 1)))) := by rw [Nat.div_eq_of_lt hlt]
  have hend : F (e / 2 ^ ((w + 1) * 0)) = F e := by rw [Nat.mul_zero, Nat.pow_zero, Nat.div_one]
  simp only [expFixedWindow, Nat.add_sub_cancel, mulTimes_form hmul, Nat.zero_add, Nat.mul_one]
  rw [hstart, ← hend]
  refine foldl_range_reverse (G := fun j => F (e / 2 ^ ((w + 1) * j))) (fun j => ?_) _
  rw [squareTimes_form hmul, hmul, Nat.mul_succ, div_two_pow_window]

/-- Sliding windows, with the bits from index `n` up in the accumulator and fuel for the `n` bits below (R149). -/
theorem expSlidingWindow_form (e w : Nat) {fuel n : Nat} (hfuel : n ≤ fuel) :
    expSlidingWindow mul (F 1) e (w + 1) fuel n (F (e / 2 ^ n)) = F e := by
  induction fuel generalizing n with
  | zero =>
    obtain rfl : n = 0 := by omega
    rw [expSlidingWindow, Nat.pow_zero, Nat.div_one]
  | succ fuel ih =>
    cases n with
    | zero => rw [expSlidingWindow, Nat.pow_zero, Nat.div_one]
    | succ n =>
      rw [expSlidingWindow]
      split
      · next htop =>
        obtain ⟨hpos, hle, hlow⟩ := windowLength_spec htop (min (w + 1) (n + 1))
        generalize windowLength e n (min (w + 1) (n + 1)) = l at hpos hle hlow
        have hwindow := div_two_pow_window e (n + 1 - l) l
        rw [Nat.sub_add_cancel (by omega)] at hwindow
        simp only [squareTimes_form hmul, oddPower_form hmul (window_odd hlow hpos), hmul, hwindow]
        exact ih (by omega)
      · next hzero =>
        have hbit := div_two_pow_window e n 1
        rw [Nat.pow_one, ← Nat.toNat_testBit, Bool.eq_false_iff.2 hzero, Bool.toNat_false, Nat.add_zero,
          Nat.mul_two] at hbit
        rw [hmul, hbit]
        exact ih (by omega)

/-- Every schedule computes the form of the base to the power `e` (R149). -/
theorem runSchedule_form (sched : ExpSchedule) (e : Nat) : runSchedule sched mul (F 0) (F 1) e = F e := by
  cases sched with
  | leftToRight => exact expLeftToRight_form hmul e
  | rightToLeft => exact expRightToLeft_form hmul e
  | fixedWindow w => exact expFixedWindow_form hmul e w
  | slidingWindow w =>
    have h := expSlidingWindow_form hmul e w (le_refl (bitlen e))
    rwa [Nat.div_eq_of_lt (lt_two_pow_bitlen e)] at h

end Schedules

/-! ## The datapath's sequences (R144 to R148, R174 to R177) -/

/-- The odd-modulus sequence computes the power: MontMul adds the exponents of the forms a^k R mod m (R145, R148). -/
theorem modexpOdd_eq (sched : ExpSchedule) (a e : Nat) {m : Nat} (hodd : m % 2 = 1) :
    modexpOdd sched a e m = a ^ e % m := by
  have hm : 0 < m := by omega
  have hlt : ∀ x, x % m < m := fun x => Nat.mod_lt x hm
  have hr2 : barrettReduce (montRadix m % m * (montRadix m % m)) m = montRadix m ^ 2 % m := by
    rw [barrettReduce_mul (hlt _) (hlt _), ← Nat.mul_mod, Nat.pow_two]
  have hxt : montMul (a % m) (montRadix m ^ 2 % m) m = a * montRadix m % m := by
    rw [montMul_enter hodd (hlt _), Nat.mod_mul_mod]
  have hrun := runSchedule_form (mul := fun x y => montMul x y m) (F := fun k => a ^ k * montRadix m % m)
    (fun i j => by rw [montMul_forms hodd, Nat.pow_add]) sched e
  simp only [Nat.pow_zero, Nat.pow_one, Nat.one_mul] at hrun
  simp only [modexpOdd, reduceLong_eq hm, hr2, hxt, hrun, montMul_leave hodd]

/-- The even-modulus sequence computes the power: BarrettReduce adds the exponents of the residues a^k mod m (R147, R148). -/
theorem modexpEven_eq (sched : ExpSchedule) (a e : Nat) {m : Nat} (hm : 1 ≤ m) :
    modexpEven sched a e m = a ^ e % m := by
  have hrun := runSchedule_form (mul := fun x y => barrettReduce (x * y) m) (F := fun k => a ^ k % m)
    (fun i j => by rw [barrettReduce_mul (Nat.mod_lt _ hm) (Nat.mod_lt _ hm), ← Nat.mul_mod, Nat.pow_add]) sched e
  rwa [Nat.pow_zero, Nat.pow_one, ← reduceLong_eq hm a] at hrun

/-- The sequence of every other command is its setup and its last operation on the working registers (R174 to R177). -/
theorem computeDatapath_eq_leaveDatapath (sched : ExpSchedule) {op : ArithOp} (hop : op ≠ .modexp) (a e m : Nat)
    (d : Datapath) : computeDatapath sched op a e m = (leaveDatapath op (loadDatapath op a e m d)).acc := by
  cases op with
  | modexp => exact absurd rfl hop
  | modmul | modred | montmul => rfl

/-- Settles O55: MODEXP by the schedules over both kinds of modulus, the other commands by their last operation. -/
theorem datapathComputesTheCommands : Obligations.DatapathComputesTheCommands := by
  intro sched op a e m hm hmont
  cases op with
  | modexp =>
    rw [computeDatapath, compute, powMod_eq]
    split
    · next hodd => exact modexpOdd_eq sched a e hodd
    · exact modexpEven_eq sched a e hm
  | modmul | modred | montmul =>
    exact (computeDatapath_eq_leaveDatapath sched (by decide) a e m State.reset.datapath).trans
      (leaveDatapath_acc (Nat.ne_of_gt hm) hmont (reduceLong_eq hm a) nofun)

/-! ## The results of MODEXP (R140 to R143) -/

/-- A normal MODEXP writes Export(pow(b, e) mod m) (R140). -/
theorem exec_modexp_normal (ie : Bool) {s : State} (h : NormalRun .modexp s) : exec (.modexp ie) s =
    .next (written (s.importValue .base ^ s.importValue .exp % s.importValue .mod) s) := by
  have hexec : exec (.modexp ie) s = .next (complete (execute .modexp s) s) := exec_arith .modexp ie s h.busy
  rw [hexec, h.complete_eq, compute, powMod_eq]
  rfl

/-- Settles O26: the outcome of a normal run, with `powMod` as the power it computes. -/
theorem modexpResult : Obligations.ModexpResult := fun ie _ h => exec_modexp_normal ie h

/-- Settles O27: each case is a value of pow(b, e) mod m. -/
theorem modexpCornerCases : Obligations.ModexpCornerCases := by
  intro ie s h
  rw [exec_modexp_normal ie h]
  refine ⟨fun hexp => ?_, fun hmod => ?_, fun hbase hexp => ?_, ?_⟩
  · rw [hexp, Nat.pow_zero]
    split
    · next hmod => rw [hmod]
    · next hmod => rw [Nat.one_mod_eq_one.2 hmod]
  · rw [hmod, Nat.mod_one]
  · rw [hbase, Nat.zero_pow (Nat.pos_of_ne_zero hexp), Nat.zero_mod]
  · rw [← Nat.pow_mod]

end Sys2Proof.Machine

/-! PROOFS. The laws of the datapath's pipelines as R163, R166, R167, R170, R171 and R172 state them, and that the working
registers are unobservable (R160) and do not survive a command (R18, R173). -/

namespace Sys2Proof.Machine

/-! ## The Montgomery constant (R163) -/

/-- The six Newton steps from 1 compute ModInv of an odd limb: an inverse below beta is the only one (R10, R163). -/
theorem newtonInverse_eq_modInv {m0 : Nat} (h : m0 % 2 = 1) : newtonInverse m0 6 1 = modInv m0 beta := by
  have hgcd : Nat.gcd m0 beta = 1 := Nat.Coprime.pow_right _ (Nat.coprime_two_right.2 (Nat.odd_iff.2 h))
  obtain ⟨-, -, hunique⟩ := modInvIsTheInverse m0 beta beta_pos hgcd
  exact hunique _ (newtonInverse_lt 6 (by decide)) (mul_newtonInverse_modEq h)

/-- Settles O51: n0' is minus the inverse that Newton's iteration finds. -/
theorem montgomeryConstant : Obligations.MontgomeryConstant := by
  refine ⟨fun m hodd => ?_, by decide⟩
  have hlimb : m % beta % 2 = 1 := by rw [Nat.mod_mod_of_dvd _ (show 2 ∣ beta by decide), hodd]
  have hnewton := newtonInverse_eq_modInv hlimb
  have hproduct : (m % beta * montConstant m + 1) % 2 ^ 64 = 0 :=
    (((Nat.mod_modEq m beta).mul_right _).add_right 1).trans (mul_montConstant_modEq hodd)
  refine ⟨hlimb, ?_, congrArg (fun x => (beta - x) % beta) hnewton, hnewton⟩
  change m % beta * montConstant m % 2 ^ 64 = 2 ^ 64 - 1
  omega

/-! ## The pipelines' laws (R166, R167, R170 to R172) -/

/-- Settles O52: R mod m enters the domain as the form of 1, and x < m leaves it as itself. -/
theorem montMulLaws : Obligations.MontMulLaws := by
  intro x y m hodd hx hy
  have hm : 0 < m := by omega
  rw [← Nat.pow_two]
  refine ⟨montMul_eq_modInv hodd hx hy, montMul_enter hodd hx, ?_, montMul_forms hodd, ?_⟩
  · rw [montMul_leave hodd, Nat.mod_eq_of_lt hx]
  · rw [montMul_enter hodd (Nat.mod_lt 1 hm), Nat.mod_mul_mod, Nat.one_mul]

/-- Settles O53: the quotient's bounds, divided by m, and the two corrections. -/
theorem barrettReduceLaw : Obligations.BarrettReduceLaw := by
  intro x m hm hx
  obtain ⟨hle, hlt⟩ := barrettQuotient_bounds hm hx
  refine ⟨(Nat.le_div_iff_mul_le hm).2 hle, Nat.le_of_lt_succ ((Nat.div_lt_iff_lt_mul hm).2 hlt), ?_,
    barrettReduce_eq hm hx⟩
  rw [Nat.add_mul] at hlt
  omega

/-- Settles O54: the loop over the limbs of x. -/
theorem reduceLongLaw : Obligations.ReduceLongLaw := fun x _ hm => reduceLong_eq hm x

/-! ## The working registers are unobservable (R160, R173)

Two states that differ in the working registers alone are `s` and `{ s with datapath := d }`. -/

section Unobservable

variable (s : State) (d : Datapath)

/-- No read sees the working registers (R160). -/
theorem readWord_withDatapath (off : Offset) : { s with datapath := d }.readWord off = s.readWord off := by
  cases htarget : target off with
  | reg r =>
    rw [readWord_reg htarget, readWord_reg htarget]
    cases r <;> rfl
  | window X o =>
    rw [readWord_window htarget, readWord_window htarget]
    rfl
  | reserved => rw [readWord_reserved htarget, readWord_reserved htarget]

/-- The outcome of a command does not depend on the working registers (R19, R160). -/
theorem commandOutcome_withDatapath (cmd : BitVec 8) :
    commandOutcome cmd { s with datapath := d } = commandOutcome cmd s := by
  obtain ⟨op, heq⟩ | heq | heq := commandOutcome_cases cmd <;> rw [heq]
  exact execute_congr op rfl rfl rfl rfl rfl rfl rfl rfl

/-- A completion forgets the working registers (R173). -/
theorem complete_withDatapath (o : CmdOutcome) : complete o { s with datapath := d } = complete o s := by
  cases o <;> rfl

/-- The ENGINE's completion of a running command leaves one state, whatever the working registers held (R173). -/
theorem engineComplete_withDatapath (hb : s.statusBUSY = true) :
    { s with datapath := d }.afterEvent .engineComplete = s.afterEvent .engineComplete := by
  simp only [State.afterEvent, if_pos hb, commandOutcome_withDatapath, complete_withDatapath]

/-- A register write other than CTRL neither reads nor writes the working registers. -/
theorem writeReg_withDatapath (r : Reg) (w : Word) :
    { s with datapath := d }.writeReg r w = { s.writeReg r w with datapath := d } := by
  cases r with
  | id | version | caps | ctrl | status | perfCycles => rfl
  | args | baseLen | expLen | modLen | outLen =>
    simp only [State.writeReg, State.lockedWrite]
    split <;> rfl

/-- One lane of a window write neither reads nor writes the working registers. -/
theorem writeLane_withDatapath (X : Buf) (o : Nat) (w : Word) (strb : Strobe) (j : Nat) :
    State.writeLane X o w strb { s with datapath := d } j = { State.writeLane X o w strb s j with datapath := d } := by
  unfold State.writeLane
  split <;> rfl

/-- A window write transfer neither reads nor writes the working registers. -/
theorem hostWriteWindow_withDatapath (X : Buf) (o : Nat) (w : Word) (strb : Strobe) :
    { s with datapath := d }.hostWriteWindow X o w strb = { s.hostWriteWindow X o w strb with datapath := d } := by
  unfold State.hostWriteWindow
  split
  · rfl
  · simp only [State.writeWindow, List.foldl_cons, List.foldl_nil, writeLane_withDatapath]

/-- A CTRL write is an acceptance, which forgets the working registers, or it leaves them as they are. -/
theorem afterCtrl_withDatapath (w : Word) : { s with datapath := d }.afterCtrl w = s.afterCtrl w ∨
    { s with datapath := d }.afterCtrl w = { s.afterCtrl w with datapath := d } := by
  unfold State.afterCtrl
  split
  · exact .inr rfl
  · split
    · exact .inl rfl
    · exact .inr rfl

/-- A write transfer is an acceptance, which forgets the working registers, or it leaves them as they are. -/
theorem afterWrite_withDatapath (off : Offset) (w : Word) (strb : Strobe) :
    { s with datapath := d }.afterWrite off w strb = s.afterWrite off w strb ∨
    { s with datapath := d }.afterWrite off w strb = { s.afterWrite off w strb with datapath := d } := by
  unfold State.afterWrite
  split
  · split
    · exact afterCtrl_withDatapath s d w
    · exact .inr rfl
  · split
    · exact .inr (writeReg_withDatapath s d _ w)
    · exact .inr rfl
  · exact .inr (hostWriteWindow_withDatapath s d _ _ w strb)
  · exact .inr rfl

/-- Every move leaves two states that differ in the working registers alone so (R160). -/
theorem afterEvent_withDatapath (e : Event) : ∃ d', { s with datapath := d }.afterEvent e =
    { s.afterEvent e with datapath := d' } := by
  cases e with
  | read off => exact ⟨d, congrArg (fun w => { s with datapath := d, prdata := w }) (readWord_withDatapath s d off)⟩
  | write off w strb =>
    obtain h | h := afterWrite_withDatapath s d off w strb <;> exact ⟨_, h⟩
  | engineInternal =>
    refine ⟨{ s with datapath := d }.internalStep.datapath, ?_⟩
    simp only [State.afterEvent]
    rw [internalStep_eq, internalStep_eq s]
  | engineComplete =>
    by_cases hb : s.statusBUSY = true
    · exact ⟨_, engineComplete_withDatapath s d hb⟩
    · exact ⟨d, by simp [State.afterEvent, hb]⟩
  | reset => exact ⟨_, rfl⟩

/-- A move that changes the phase leaves one state, whatever the working registers held (R18, R173). -/
theorem afterEvent_withDatapath_of_phase_change {e : Event} (h : s.statusBUSY ≠ (s.afterEvent e).statusBUSY) :
    { s with datapath := d }.afterEvent e = s.afterEvent e := by
  by_cases hb : s.statusBUSY = true
  · obtain rfl | rfl := afterEvent_ends hb (by simpa [hb] using h)
    · exact engineComplete_withDatapath s d hb
    · rfl
  · have hidle := Bool.eq_false_iff.2 hb
    obtain ⟨off, w, rfl, htarget, hw, heq⟩ := afterEvent_starts hidle (by simpa [hidle] using h)
    rw [heq, State.afterEvent, afterWrite_ctrl htarget, if_pos rfl]
    exact afterCtrl_start (s := { s with datapath := d }) hidle hw

end Unobservable

/-- Settles O57: reads, outcomes and register writes do not look at the working registers, and the moves that change the
phase are acceptances, completions and resets, which forget them. -/
theorem datapathIsUnobservable : Obligations.DatapathIsUnobservable := by
  intro s t ht
  generalize t.datapath = d at ht
  subst ht
  refine ⟨rfl, readWord_withDatapath s d, fun e s' t' hs ht => ?_⟩
  cases (handleEvent_eq e s).symm.trans hs
  cases (handleEvent_eq e _).symm.trans ht
  refine ⟨?_, afterEvent_withDatapath_of_phase_change s d⟩
  obtain ⟨d', heq⟩ := afterEvent_withDatapath s d e
  rw [heq]

end Sys2Proof.Machine

/-! PROOFS. The results of MODMUL, MODRED and MONTMUL, the refusal of an even modulus, ZEROIZE, and the illegal command
(43_aux_commands.md). -/

namespace Sys2Proof.Machine

/-! ## The results (R190, R193, R196) -/

/-- A normal run of a result-computing command ends with its computed result written (R121, R124). -/
theorem exec_arith_normal {op : ArithOp} {s : State} (ie : Bool) (h : NormalRun op s) : exec (op.instr ie) s =
    .next (written (compute op (s.importValue .base) (secondOperand op s) (s.importValue .mod)) s) := by
  rw [exec_arith op ie s h.busy, h.complete_eq]

/-- Settles O28: the outcome of a normal run, whose second operand is EXP. -/
theorem modmulResult : Obligations.ModmulResult := fun ie _ h => exec_arith_normal ie h

/-- A running MODRED passes its checks whatever EXP is: EXP is no operand of it (R93, R193). -/
theorem normalRun_modred {s : State} (hb : s.statusBUSY = true) (hbase : s.present .base = true)
    (hmod : s.present .mod = true) (hout : s.present .out = true) (hcap : s.modLen.toNat ≤ s.outLen.toNat)
    (hbaseLen : s.baseLen.toNat ≤ s.maxBytes) (hmodLen : s.modLen.toNat ≤ s.maxBytes)
    (hm : s.importValue .mod ≠ 0) : NormalRun .modred s where
  busy := hb
  handles
    | .base, _ => hbase
    | .mod, _ => hmod
    | .out, _ => hout
  capacity := hcap
  lengths
    | .base, _, _ => hbaseLen
    | .mod, _, _ => hmodLen
    | .out, hne, _ => absurd rfl hne
  modulus := hm
  odd := nofun

/-- Settles O29: the outcome of a normal run, and no check of it reads EXP. -/
theorem modredResult : Obligations.ModredResult :=
  fun ie _ hb hbase hmod hout hcap hbaseLen hmodLen hm =>
    exec_arith_normal ie (normalRun_modred hb hbase hmod hout hcap hbaseLen hmodLen hm)

/-- MONTMUL's result is MontMul of the reduced operands, for an odd modulus (R166, R196). -/
theorem compute_montmul_eq_montMul (a b : Nat) {m : Nat} (hodd : m % 2 = 1) :
    compute .montmul a b m = montMul (a % m) (b % m) m := by
  have hlt : ∀ x, x % m < m := fun x => Nat.mod_lt x (by omega)
  rw [montMul_eq_modInv hodd (hlt a) (hlt b)]
  exact ((Nat.mod_modEq a m).mul (Nat.mod_modEq b m)).symm.mul_right _

/-- MONTMUL's result times the radix is the product of the operands, for an odd modulus (R197). -/
theorem compute_montmul_mul_radix (a b : Nat) {m : Nat} (hodd : m % 2 = 1) :
    compute .montmul a b m * montRadix m ≡ a * b [MOD m] := by
  have hlt : a % m < m := Nat.mod_lt a (by omega)
  rw [compute_montmul_eq_montMul a b hodd]
  exact (montMul_mul_radix (a % m) hodd hlt).trans ((Nat.mod_modEq a m).mul (Nat.mod_modEq b m))

/-- Settles O30: the computed result, with the limb count of the modulus as k. -/
theorem montmulResult : Obligations.MontmulResult := by
  intro ie s h
  exact ⟨compute .montmul (s.importValue .base) (s.importValue .exp) (s.importValue .mod), limbCount (s.importValue .mod),
    rfl, compute_lt .montmul _ _ h.modulus, compute_montmul_mul_radix _ _ (h.odd rfl), rfl, exec_arith_normal ie h⟩

/-! ## The even modulus (R196, R198) -/

/-- Only MONTMUL has an outcome EVEN_MODULUS: it is no cause of the arguments' checks (R221). -/
theorem execute_ne_evenModulus {op : ArithOp} (hop : op ≠ .montmul) (s : State) :
    execute op s ≠ .error .evenModulus := by
  intro herror
  obtain ⟨c, hc, heq⟩ | ⟨-, c, hc, heq⟩ | ⟨-, -, heq⟩ := execute_cases op s <;> cases heq.symm.trans herror
  · exact absurd (checkArguments_cause hc) (by decide)
  · obtain hzero | ⟨hmontmul, -⟩ := checkModulus_cause hc
    · cases hzero
    · exact hop hmontmul

/-- Settles O38: the parity is checked when every other check has passed, and for MONTMUL alone. -/
theorem montmulRefusesEvenModulus : Obligations.MontmulRefusesEvenModulus := by
  refine ⟨fun ie s hb hh hcap hfit hm heven => ?_, fun op s hop => execute_ne_evenModulus hop s⟩
  have hcheck : checkModulus .montmul (s.importValue .mod) = some .evenModulus := by simp [checkModulus, hm, heven]
  exact exec_arith_error ie hb (execute_modulus_error hh hcap hfit hcheck)

/-! ## ZEROIZE (R204, R205) -/

/-- A running ZEROIZE clears the buffers and succeeds: it makes no check (R115, R204). -/
theorem exec_zeroize {s : State} (ie : Bool) (hb : s.statusBUSY = true) :
    exec (.zeroize ie) s = .next (s.zeroBuffers.finish .none) := by
  rw [exec_eq, if_pos hb]
  rfl

/-- Settles O32: the bytes read as the clearing leaves them, for the end of a completion does not touch them. -/
theorem zeroizeClearsTheBuffers : Obligations.ZeroizeClearsTheBuffers :=
  fun ie s hb => ⟨s.zeroBuffers.finish .none, exec_zeroize ie hb, readByte_zeroBuffers s, rfl⟩

/-! ## The illegal command (R207) -/

/-- The ENGINE's completion of a CMD value outside the legal opcodes records ILLEGAL_CMD (R92, R115). -/
theorem engineComplete_illegal {s : State} (hb : s.statusBUSY = true) (hcmd : s.ctrlCMD ∉ legalOpcodes) :
    engineComplete s = .next (failed 0xFF#8 1#4 s) := by
  have hdecode : decode s.runningWord = .error (.illegalCommand s.ctrlCMD s.ctrlIE) := by
    rw [State.runningWord, decode_start (fieldSTART_ctrlWord _ _ _), fieldCMD_ctrlWord, fieldIE_ctrlWord,
      decodeCMD_illegal hcmd]
  rw [engineComplete, if_pos hb, runWord, hdecode]
  exact if_pos hb

/-- Settles O33: acceptance does not look at CMD, and the completion of an illegal CMD is an error. -/
theorem illegalCommandFails : Obligations.IllegalCommandFails := by
  refine ⟨fun w s hstart hcmd => ⟨fun hidle => ?_, fun hb hrunning => ?_⟩, by decide⟩
  · exact ⟨s.accept (fieldCMD w) (fieldIE w), by rw [writeCtrl_eq, afterCtrl_start hidle hstart], rfl, rfl⟩
  · exact engineComplete_illegal hb (hrunning ▸ hcmd)

end Sys2Proof.Machine

/-! PROOFS. Errors as the exceptions of the engine: what an error completion changes (R222), and which command raises which
cause (R221). -/

namespace Sys2Proof.Machine

/-! ## The error completion (R222) -/

/-- The completion of an outcome that reports a nonzero CODE is an error completion: a success records CODE 0 (R95, R124). -/
theorem complete_of_code_ne_zero {o : CmdOutcome} {s : State} (h : (complete o s).statusCODE ≠ 0x00#8) :
    complete o s = failed (complete o s).statusCODE (complete o s).statusCAUSE s := by
  cases o with
  | write bytes => exact absurd rfl h
  | zeroize => exact absurd rfl h
  | error c => rfl

/-- Settles O39: both moves answer the completion of the command's outcome. -/
theorem errorCompletionIsPrecise : Obligations.ErrorCompletionIsPrecise := by
  refine ⟨fun i s t hb ht hcode => ?_, fun s t hb ht hcode => ?_⟩
  · rw [exec_eq, if_pos hb] at ht
    cases ht
    exact complete_of_code_ne_zero hcode
  · rw [engineComplete_eq, if_pos hb] at ht
    cases ht
    exact complete_of_code_ne_zero hcode

/-! ## The table of causes (R221) -/

/-- The causes that every result-computing command can raise (R221). -/
def commonCauses : List Cause :=
  [.nullBase, .nullMod, .nullOut, .capLtModLen, .baseTooLong, .modTooLong, .zeroModulus]

/-- The table of R221 by groups: the causes of all commands, those of a needed EXP, and MONTMUL's own. -/
theorem ArithOp.raises_iff {op : ArithOp} {c : Cause} : op.raises c = true ↔
    c ∈ commonCauses ∨ (c ∈ [.nullExp, .expTooLong] ∧ op.needs .exp = true) ∨ (op = .montmul ∧ c = .evenModulus) := by
  cases op <;> cases c <;> decide

section Raised

variable {op : ArithOp} {s : State} {c : Cause}

/-- The handle checks raise causes of the table only: EXP's is guarded by the need for EXP (R116). -/
theorem checkHandles_raises (h : checkHandles op s = some c) : op.raises c = true := by
  rw [ArithOp.raises_iff]
  unfold checkHandles at h
  split at h
  · cases h
    exact .inl (by decide)
  split at h
  · next hexp =>
    cases h
    exact .inr (.inl ⟨by decide, (Bool.and_eq_true_iff.1 hexp).1⟩)
  repeat' split at h
  all_goals cases h
  all_goals exact .inl (by decide)

/-- The length checks raise causes of the table only: EXP's is guarded by the need for EXP (R119). -/
theorem checkLengths_raises (h : checkLengths op s = some c) : op.raises c = true := by
  rw [ArithOp.raises_iff]
  unfold checkLengths at h
  split at h
  · cases h
    exact .inl (by decide)
  split at h
  · next hexp =>
    cases h
    exact .inr (.inl ⟨by decide, (Bool.and_eq_true_iff.1 hexp).1⟩)
  split at h
  all_goals cases h
  exact .inl (by decide)

/-- The checks of the arguments raise causes of the table only. -/
theorem checkArguments_raises (h : checkArguments op s = some c) : op.raises c = true := by
  obtain (hhandles | ⟨-, hcap⟩) | ⟨-, hlengths⟩ : (checkHandles op s = some c ∨
      checkHandles op s = none ∧ checkCapacity s = some c) ∨
      (checkHandles op s).or (checkCapacity s) = none ∧ checkLengths op s = some c := by
    rwa [checkArguments, Option.or_eq_some_iff, Option.or_eq_some_iff] at h
  · exact checkHandles_raises hhandles
  · rw [checkCapacity_cause hcap]
    exact ArithOp.raises_iff.2 (.inl (by decide))
  · exact checkLengths_raises hlengths

/-- An error of a result-computing command is in the table (R221). -/
theorem raises_of_execute_error (h : execute op s = .error c) : op.raises c = true := by
  obtain ⟨c', hc, heq⟩ | ⟨-, c', hc, heq⟩ | ⟨-, -, heq⟩ := execute_cases op s <;> cases heq.symm.trans h
  · exact checkArguments_raises hc
  · obtain rfl | ⟨rfl, rfl⟩ := checkModulus_cause hc
    · exact ArithOp.raises_iff.2 (.inl (by decide))
    · rfl

end Raised

/-- A running engine with every handle present, BASE and EXP of length 0, and the modulus 2. -/
def runningOnTwo : State :=
  { State.reset with
    statusBUSY := true, args := 0xF#4, modLen := 1#32, outLen := 1#32, mem := [(0x3000, 0x02#8)] }

/-- For each cause of the table a running engine whose inputs fail its check and no earlier one. -/
def raisingState : Cause → State
  | .nullBase => { runningOnTwo with args := 0xE#4 }
  | .nullExp => { runningOnTwo with args := 0xD#4 }
  | .nullMod => { runningOnTwo with args := 0xB#4 }
  | .nullOut => { runningOnTwo with args := 0x7#4 }
  | .capLtModLen => { runningOnTwo with outLen := 0#32 }
  | .baseTooLong => { runningOnTwo with baseLen := 513#32 }
  | .expTooLong => { runningOnTwo with expLen := 513#32 }
  | .modTooLong => { runningOnTwo with modLen := 513#32, outLen := 513#32 }
  | .zeroModulus => { runningOnTwo with modLen := 0#32 }
  | .none | .illegalCmd | .evenModulus | .resultGtCap => runningOnTwo

/-- The engine that runs on the modulus 2 meets the invariant. -/
theorem runningOnTwo_inv : runningOnTwo.Inv where
  legal := by decide
  memWf := List.pairwise_singleton _ _
  memBacked c hc := by
    cases List.mem_singleton.1 hc
    exact ⟨.mod, by decide, by decide⟩
  running _ := ⟨rfl, rfl, rfl⟩
  status := ⟨.none, by decide, rfl, rfl⟩

/-- The raising states differ in ARGS and the lengths alone, of which the invariant does not speak. -/
theorem raisingState_inv (c : Cause) : (raisingState c).Inv := by
  cases c <;> exact runningOnTwo_inv.congr rfl rfl rfl rfl rfl rfl

/-- An engine with all bits of ARGS set has every handle present (R28). -/
theorem handlesPresent_of_args {op : ArithOp} {s : State} (h : s.args = 0xF#4) : HandlesPresent op s := by
  intro X _
  cases X <;> simp [State.present, h]

/-- The raising state of a cause makes every command raise it that can (R221). -/
theorem execute_raisingState {op : ArithOp} {c : Cause} (h : op.raises c = true) :
    execute op (raisingState c) = .error c := by
  cases c with
  | none | illegalCmd | resultGtCap => exact absurd h (by cases op <;> decide)
  | nullBase => exact execute_handle_error (checkHandles_nullBase (by decide))
  | nullExp =>
    have hneeds : op.needs .exp = true := by simpa [ArithOp.raises_iff, commonCauses] using h
    exact execute_handle_error (checkHandles_nullExp (by decide) hneeds (by decide))
  | nullMod => exact execute_handle_error (checkHandles_nullMod (by decide) (fun _ => by decide) (by decide))
  | nullOut => exact execute_handle_error (checkHandles_nullOut (by decide) (fun _ => by decide) (by decide) (by decide))
  | capLtModLen => exact execute_capacity_error (handlesPresent_of_args rfl) (by decide)
  | baseTooLong =>
    have hcheck := checkLengths_baseTooLong (op := op) (s := raisingState .baseTooLong) (by decide)
    exact execute_length_error (handlesPresent_of_args rfl) (by decide) hcheck
  | expTooLong =>
    have hneeds : op.needs .exp = true := by simpa [ArithOp.raises_iff, commonCauses] using h
    have hcheck := checkLengths_expTooLong (s := raisingState .expTooLong) (by decide) hneeds (by decide)
    exact execute_length_error (handlesPresent_of_args rfl) (by decide) hcheck
  | modTooLong =>
    have hcheck := checkLengths_modTooLong (op := op) (s := raisingState .modTooLong) (by decide) (fun _ => by decide)
      (by decide)
    exact execute_length_error (handlesPresent_of_args rfl) (by decide) hcheck
  | zeroModulus =>
    have hfit : OperandsFit op (raisingState .zeroModulus)
      | .base, _, _ | .exp, _, _ | .mod, _, _ => by decide
      | .out, hout, _ => absurd rfl hout
    exact execute_modulus_error (handlesPresent_of_args rfl) (by decide) hfit (if_pos (by decide))
  | evenModulus =>
    obtain rfl : op = .montmul := by simpa [ArithOp.raises_iff, commonCauses] using h
    decide

/-- Settles O41: the errors are in the table, each entry has its raising state (CMD, which no check reads, set to the
command's opcode), and ZEROIZE and an illegal command have one outcome each. -/
theorem causeTable : Obligations.CauseTable := by
  refine ⟨fun op c => ⟨fun h => ?_, fun ⟨s, _, _, h⟩ => raises_of_execute_error h⟩, fun ie s t hb ht => ?_,
    fun cmd ie s t hb ht => ?_, fun c => ⟨rfl, ?_⟩⟩
  · refine ⟨{ raisingState c with ctrlCMD := (op.instr false).opcode },
      (raisingState_inv c).congr rfl rfl rfl rfl rfl rfl, by cases c <;> rfl, ?_⟩
    rw [← execute_raisingState h]
    exact execute_congr op rfl rfl rfl rfl rfl rfl rfl rfl
  · cases (exec_zeroize ie hb).symm.trans ht
    rfl
  · rw [execIllegal, runCommand, if_pos hb] at ht
    cases ht
    rfl
  · cases c <;> decide

end Sys2Proof.Machine

/-! PROOFS. RESET at any moment (R260, R262), and a command that follows reset at once (R266). -/

namespace Sys2Proof.Machine

/-! ## The RESET event (R262) -/

/-- RESET gives every register its reset value; CAPS, which reads MAX_BYTES, is apart (R41, R262). -/
theorem readReg_resetEvent {r : Reg} (hr : r ≠ .caps) (s : State) : s.resetEvent.readReg r = State.reset.readReg r := by
  cases r with
  | caps => exact absurd rfl hr
  | id | version | ctrl | status | args | baseLen | expLen | modLen | outLen | perfCycles => rfl

/-- RESET leaves CAPS as it was, for MAX_BYTES is no register (R8, R24, R260). -/
theorem capsWord_resetEvent (s : State) : s.resetEvent.capsWord = s.capsWord := rfl

/-- Settles O47: a register's word after RESET is its word in the reset state, which does not depend on the state before. -/
theorem resetEventRestoresTheRegisters : Obligations.ResetEventRestoresTheRegisters := by
  intro s
  have hcaps : target 0x008#15 = .reg .caps := by decide
  refine ⟨s.resetEvent, handleEvent_eq .reset s, (phase_eq_idle _).2 (resetEvent_statusBUSY s), rfl,
    readReg_resetEvent (r := .ctrl) (by decide) s, readReg_resetEvent (r := .status) (by decide) s,
    resetEvent_args s, resetEvent_baseLen s, resetEvent_expLen s, resetEvent_modLen s, resetEvent_outLen s,
    resetEvent_perfCycles s, ?_, ?_, ?_⟩
  · exact readWord_reg (r := .id) (by decide) s.resetEvent
  · exact readWord_reg (r := .version) (by decide) s.resetEvent
  · rw [readWord_reg hcaps, readWord_reg hcaps]
    exact capsWord_resetEvent s

/-! ## A command straight after reset (R266) -/

/-- A START on an idle engine, then the ENGINE's completion: the outcome of the command accepted (R110, R111, R124). -/
theorem run_start_engineComplete {s : State} (hidle : s.statusBUSY = false) {off : Offset} {w : Word}
    (htarget : target off = .reg .ctrl) (hstart : fieldSTART w = true)
    (hs : s.inputs = [.write off w 0xF#4, .engineComplete]) :
    Host.Core.run Sys2Proof.core 2 s =
      .next (complete (commandOutcome (fieldCMD w) ((s.withInputs []).accept (fieldCMD w) (fieldIE w)).tick)
        ((s.withInputs []).accept (fieldCMD w) (fieldIE w)).tick) := by
  have hacceptance : step s = .next ((s.withInputs [.engineComplete]).accept (fieldCMD w) (fieldIE w)) := by
    rw [step_idle_write hidle hs, afterWrite_ctrl htarget, if_pos rfl, afterCtrl_start (by simpa using hidle) hstart]
  have hcompletion : step ((s.withInputs [.engineComplete]).accept (fieldCMD w) (fieldIE w)) =
      .next (((s.withInputs []).accept (fieldCMD w) (fieldIE w)).tick.afterEvent .engineComplete) := step_cons rfl
  rw [run_succ 1 hacceptance, run_succ 0 hcompletion, State.afterEvent, tick_statusBUSY, accept_statusBUSY, if_pos rfl,
    tick_ctrlCMD, accept_ctrlCMD]
  rfl

/-- A running command without the handle of BASE has the outcome NULL_BASE (R93, R116). -/
theorem commandOutcome_nullBase {cmd : BitVec 8} {op : ArithOp} (hop : arithOp cmd = some op) {s : State}
    (hbase : s.present .base = false) : commandOutcome cmd s = .error .nullBase := by
  rw [commandOutcome_of_arithOp hop]
  exact execute_handle_error (checkHandles_nullBase hbase)

/-- STATUS after a command without the handle of BASE, LOCKERR being 0 (R26, R95, R96). -/
theorem statusWord_nullBase {s : State} (hlockerr : s.statusLOCKERR = false) :
    (complete (.error .nullBase) s).statusWord = 0x0002FF02#32 := by
  have hword : (complete (.error .nullBase) s).statusWord = 0#12 ++ Cause.nullBase.bits ++ Cause.nullBase.code ++ 0#5 ++
      BitVec.ofBool s.statusLOCKERR ++ BitVec.ofBool true ++ BitVec.ofBool false := rfl
  rw [hword, hlockerr]
  decide

/-- Settles O60: ARGS is 0 after reset, so BASE's handle is absent; the error completion keeps OUT_LEN and the bytes. -/
theorem startAfterResetFailsWithNullBase : Obligations.StartAfterResetFailsWithNullBase := by
  have hrun := run_start_engineComplete
    (s := { State.reset with inputs := [.write 0x010#15 0x00000101#32 0xF#4, .engineComplete] }) rfl
    (by decide) (by decide) rfl
  rw [commandOutcome_nullBase (op := .modexp) (by decide) (by simp [State.present, State.reset])] at hrun
  refine ⟨_, hrun, statusWord_nullBase (by simp [State.reset]), rfl, rfl, ?_, fun X i => ?_⟩
  · simp [complete, State.reset]
  · rw [readByte_complete_error]
    simp [State.readByte]

end Sys2Proof.Machine
